-- ==== Sys2Proof/Word.lean ====
section
/-! DEFINITION. The words of the Tandrig 6W64 that the manual treats as bits, and the indices of its ports, windows
and epochs (00_scope.md 0.4 and 0.5). -/

namespace Sys2Proof

/-- A byte on one lane of a data bus. -/
abbrev Byte := BitVec 8

/-- A 32-bit word: a word of the aperture, or the four lanes of a data bus. -/
abbrev Word := BitVec 32

/-- A 32-bit address in an initiator's local space. -/
abbrev LocalAddr := BitVec 32

/-- A 36-bit address in the system space. -/
abbrev SysAddr := BitVec 36

/-- A generation, 0 to 65535; it steps from 65535 to 0 (R7). -/
abbrev Generation := BitVec 16

/-- The request number of a command slot, 0 to 65535; it steps from 65535 to 0 (R179). -/
abbrev RequestNumber := BitVec 16

/-- A port's epoch, 0 to 65535; it steps from 65535 to 0 (R164). -/
abbrev PortEpoch := BitVec 16

/-- One of the six ports I0 to I5. -/
abbrev PortId := Fin 6

/-- One of the sixty-four windows W0 to W63. -/
abbrev WindowId := Fin 64

/-- A window's epoch, 0 or 1. -/
abbrev Epoch := Fin 2

/-- The six ports, in the order I0 to I5. -/
def allPorts : List PortId := [0, 1, 2, 3, 4, 5]

end Sys2Proof
end

