-- ==== Sys2Proof/Syntax.lean ====
section
/-! DEFINITION. The commands of the part, one constructor for each row of spec/opcode_table.json, and the operands
they carry. A command is one event of the manual (00_scope.md 0.5, "Events and the owning block"), taken whole by
the block that owns the state it touches. The rows give no operand fields, so each constructor names what the event's
own rule says must be named: the port that takes it, or what the outside world presents with it. What a message or a
request carries is NOT an operand: it stands in the machine's own channels and slots. -/

namespace Sys2Proof

/-- The kind of an access (R26). -/
inductive AccessKind where
  | read | write | linkedRead | conditionalWrite
deriving DecidableEq, Repr

/-- The size of an access or of a part: 1, 2 or 4 bytes (R26). -/
inductive AccessSize where
  | one | two | four
deriving DecidableEq, Repr

/-- The size in bytes. -/
def AccessSize.bytes : AccessSize → Nat
  | .one => 1
  | .two => 2
  | .four => 4

/-- The class an initiator signals with an access (R26). -/
inductive AccessClass where
  | fetch | data
deriving DecidableEq, Repr

/-- The level an initiator signals with an access (R26). -/
inductive AccessLevel where
  | user | privileged
deriving DecidableEq, Repr

/-- What an access carries besides its write data, and what a walk carries of it (R26, R37). -/
structure AccessHead where
  kind : AccessKind
  size : AccessSize
  addr : LocalAddr
  cls : AccessClass
  level : AccessLevel
deriving DecidableEq, Repr

/-- One access as its initiator presents it (R26). `data` is the four lanes of the local data bus; it means
something only for a write, and there only on the lanes of the access's own bytes (R104). -/
structure Access extends AccessHead where
  data : Word
deriving DecidableEq, Repr

/-- Who sent a subtraction: a port unit on its channel, or the system bus engine on its own (R11, R76). -/
inductive SubtractionSender where
  | port (p : PortId)
  | engine
deriving DecidableEq, Repr

/-- The slot words whose WRITE has no behaviour of its own: the staging words, which store the value, and the read-only
words, on which a WRITE has no effect (R178). -/
inductive PlainWord where
  | request
  | param (i : Fin 6)
  | identity
  | status
  | result
  | resultWord (i : Fin 5)
deriving DecidableEq, Repr

/-- The strap inputs, as sampled at the release of the device reset (00_scope.md 0.6); `true` is high. -/
structure Straps where
  sup1 : Bool
  sup2 : Bool
  sup3 : Bool
  sup4 : Bool
  sup5 : Bool
  onl1 : Bool
  onl2 : Bool
  onl3 : Bool
  onl4 : Bool
  onl5 : Bool
  bw1 : Bool
  bw0 : Bool
  btop : Bool
deriving DecidableEq, Repr

/-- The result codes of a request that has one (R184); code 0, no result taken, is the absence of a result. -/
inductive ResultCode where
  | done | cancelled | busy | stale | state | overlap | invalid | denied | self | noSuch
deriving DecidableEq, Repr

/-- A result on its way to a command slot: its code, its generation where one is present, and Q0 to Q4 (R180, R184). -/
structure Result where
  code : ResultCode
  generation : Option Generation
  words : Vector Word 5
deriving DecidableEq, Repr

/-- The commands of the part: the rows of spec/opcode_table.json in the table's order. -/
inductive Instr where
  /-- An initiator presents an access on port p's local bus (R28). -/
  | accessArrival (p : PortId) (a : Access)
  /-- Port p's initiator writes a slot word that has no behaviour of its own (R178). -/
  | registerWrite (p : PortId) (word : PlainWord) (value : Word)
  /-- Port p's initiator writes ACKNOWLEDGE (R180); the value written is not examined. -/
  | acknowledge (p : PortId)
  /-- The table takes the walk its request arbiter chooses (R20 to R22). -/
  | walk
  /-- Port p takes an ADMIT answer from its channel (R38). -/
  | admitAnswer (p : PortId)
  /-- Port p takes a DENY answer from its channel (R39). -/
  | denyAnswer (p : PortId)
  /-- Port p takes a NONE answer from its channel (R40). -/
  | noneAnswer (p : PortId)
  /-- Port p takes a PARK answer from its channel (R41). -/
  | parkAnswer (p : PortId)
  /-- The table takes an addition from port p's channel (R10). -/
  | addition (p : PortId)
  /-- The table takes a subtraction from a port's channel or from the engine's (R11). -/
  | subtraction (sender : SubtractionSender)
  /-- The table takes an acknowledgement from port p's channel (R79). -/
  | acknowledgement (p : PortId)
  /-- The table takes port p's offline notice (R81). -/
  | offlineNotice (p : PortId)
  /-- The table takes port p's online notice (R82). -/
  | onlineNotice (p : PortId)
  /-- Port p takes a shoot-down from its channel (R78). -/
  | shootDown (p : PortId)
  /-- Port p takes a release notice from its channel (R42). -/
  | releaseNotice (p : PortId)
  /-- Port p takes a retire notice from its channel (R43). -/
  | retireNotice (p : PortId)
  /-- Port p's park timer expires (R43). -/
  | parkTimerExpiry (p : PortId)
  /-- The table takes the management request its arbiter chooses, a DEFINE (R54). -/
  | define
  /-- The table takes the chosen management request, an AMEND (R56, R57). -/
  | amend
  /-- The table takes the chosen management request, an ENABLE (R58). -/
  | enable
  /-- The table takes the chosen management request, a HOLD (R59). -/
  | hold
  /-- The table takes the chosen management request, a RELEASE (R63, R65). -/
  | release
  /-- The table takes the chosen management request, a RETIRE (R66, R67, R69). -/
  | retire
  /-- The table takes the chosen management request, a SET_RIGHTS (R70). -/
  | setRights
  /-- The table takes the chosen management request, a QUERY_WINDOW (R187). -/
  | queryWindow
  /-- The target port takes the PORT_ONLINE that the issuer's slot sent (R167). -/
  | portOnline (issuer : PortId)
  /-- The target port takes the PORT_OFFLINE that the issuer's slot sent (R168, R169). -/
  | portOffline (issuer : PortId)
  /-- The target port takes the FENCE that the issuer's slot sent (R157). -/
  | fence (issuer : PortId)
  /-- The target port takes the UNFENCE that the issuer's slot sent (R158). -/
  | unfence (issuer : PortId)
  /-- The target port takes the CLEAR_FAULT that the issuer's slot sent (R159). -/
  | clearFault (issuer : PortId)
  /-- The target port takes the QUERY_PORT that the issuer's slot sent (R188). -/
  | queryPort (issuer : PortId)
  /-- The configuration unit takes the SET_PARAM that the issuer's slot sent (R192). -/
  | setParam (issuer : PortId)
  /-- The configuration unit takes the CLEAR_DEVICE_FAULT that the issuer's slot sent (R162). -/
  | clearDeviceFault (issuer : PortId)
  /-- The configuration unit takes the QUERY_DEVICE that the issuer's slot sent (R190). -/
  | queryDevice (issuer : PortId)
  /-- A result carrying a request number reaches port p's slot (R180). -/
  | resultTaken (p : PortId) (number : RequestNumber) (result : Result)
  /-- A termination ACK of the part presented `number`th reaches the engine, the target driving `lanes` (R106, R107). A
  termination belongs to one part (R106), and the number says to which: the parts are counted from 1 as they are
  presented, and 0, which a command holds that gives no number, is no part's. -/
  | partAck (lanes : Word) (number : Nat := 0)
  /-- A termination ERR of the part presented `number`th reaches the engine (R106, R108). -/
  | partErr (number : Nat := 0)
  /-- A termination RTY of the part presented `number`th reaches the engine (R106, R109). -/
  | partRty (number : Nat := 0)
  /-- The response timer of the part on the system bus expires (R110). -/
  | responseTimerExpiry
  /-- The tick at which the ports in the retry waiters leave it (R96). -/
  | retryWaitExpiry
  /-- The external master asserts its request line (R97). -/
  | externalRequest
  /-- The external master withdraws its request (R97, R116). -/
  | externalWithdraw
  /-- The bus monitor sees a write cycle of the external master end ACK (R117). -/
  | externalWriteAck (addr : SysAddr) (size : AccessSize)
  /-- Port p takes an entry-finished report from the engine (R127). -/
  | entryFinishedReport (p : PortId)
  /-- Port p's reset input is asserted (R173). -/
  | portReset (p : PortId)
  /-- The device reset is applied and released, the straps being sampled at its release (R177). -/
  | deviceReset (straps : Straps)
  /-- Port p's reset input is released (R173). -/
  | portResetRelease (p : PortId)
deriving DecidableEq, Repr

end Sys2Proof
end

