-- ==== Sys2Proof/Decode.lean ====
section
/-! DEFINITION. The decoder over the opcode table's rows. No row of spec/opcode_table.json gives any bits (each has
"fields": [] and no fixed bits): the part has no instruction words, and its commands are events. So no word spells a
command. The words that software does write, the REQUEST word and the parameter words (R183, R185), are read by
Machine/Operands.lean. -/

namespace Sys2Proof

/-- The command that a word spells by the table's bits: none, since no row of the table gives bits. -/
def decodeTableWord (_nbits _w : Nat) : Option Instr := none

end Sys2Proof
end

