-- ==== Sys2Proof/Config.lean ====
section
/-! DEFINITION. The fixed sizes of the part and the ranges and defaults of its device parameters (R119, R121, R191).
The manual leaves no value of the part to an implementation and calls no result undefined, so there is no free value
here. -/

namespace Sys2Proof.Config

/-- The posted-write store holds at most 16 entries (R121). -/
def storeCapacity : Nat := 16

/-- At most 8 entries of the store come from one port (R121). -/
def portQuota : Nat := 8

/-- The least and the greatest park limit, in microseconds (R191). -/
def parkLimitMin : Nat := 1
def parkLimitMax : Nat := 255

/-- The least and the greatest response limit, in microseconds (R191). -/
def responseLimitMin : Nat := 1
def responseLimitMax : Nat := 1023

/-- The greatest retry limit (R191). -/
def retryLimitMax : Nat := 15

/-- The greatest rank of a port (R191). -/
def rankMax : Nat := 3

/-- The greatest overflow count of a fault record, at which it stays (R148, R161). -/
def overflowMax : Nat := 255

/-- The first address of the aperture, FFFF_F000h, as a number (R29). -/
def apertureBase : Nat := 0xFFFFF000

/-- The greatest in-flight count (R1, R12). -/
def countLimit : Nat := 23

end Sys2Proof.Config
end

