-- ==== Sys2Proof/Machine/Types.lean ====
section
/-! DEFINITION. The data of the part's blocks: window records (Section 1), lookasides and current accesses (Section 2),
the messages of the channels (Section 4), the system bus engine (Sections 5 and 6), the reservation monitor (Section 7),
the fault records (Section 8), the port units (Section 9), the command slots and the configuration unit (Section 10). -/

namespace Sys2Proof.Machine

/-! ### The window table (Section 1) -/

/-- A port's right in a window, in rising order (R1, R9). -/
inductive Right where
  | noRight | read | readWrite
deriving DecidableEq, Repr

/-- Whether FETCH-class reads may pass (R1). -/
inductive FetchSetting where
  | allowed | barred
deriving DecidableEq, Repr

/-- Whether USER-level accesses may pass (R1). -/
inductive LevelSetting where
  | any | privileged
deriving DecidableEq, Repr

/-- The data width of the target, in bits (R1). -/
inductive Width where
  | w8 | w16 | w32
deriving DecidableEq, Repr

/-- Whether writes are answered when they enter the posted-write store (R1). -/
inductive Posting where
  | strict | posted
deriving DecidableEq, Repr

/-- The fields of a window that a record and a lookaside copy both hold, the rights apart (R1, R3, R32). -/
structure Terms where
  localBase : LocalAddr
  sizeCode : Fin 32
  targetBase : SysAddr
  fetch : FetchSetting
  level : LevelSetting
  width : Width
  posting : Posting
  linkable : Bool
deriving DecidableEq, Repr

/-- A rights list: one right for each port (R1). -/
abbrev Rights := Vector Right 6

/-- The states of a window other than FREE (1.2). -/
inductive WindowPhase where
  | staged | live | held | draining
deriving DecidableEq, Repr

/-- The five window states (1.2). -/
inductive WindowState where
  | free | staged | live | held | draining
deriving DecidableEq, Repr

/-- A pending operation, with its requester port and its request number (R13). -/
inductive PendingOp where
  | hold (requester : PortId) (number : RequestNumber) (settled : Bool)
  | retire (requester : PortId) (number : RequestNumber)
  | revise (requester : PortId) (number : RequestNumber) (narrowing : Bool)
deriving DecidableEq, Repr

/-- What a record that is not FREE holds besides its generation (R1). `counts` has one in-flight count for each epoch, 0
to 23 (R12). `shootSet` is the outstanding shoot-down set, kept in the order I0 to I5, and `setGeneration` its set
generation, present while the set is not empty (R15, R80). -/
structure WindowBody where
  phase : WindowPhase
  terms : Terms
  rights : Rights
  epoch : Epoch
  counts : Vector Nat 2
  pendingOp : Option PendingOp
  shootSet : List PortId
  setGeneration : Option Generation
deriving DecidableEq, Repr

/-- A window record: FREE exactly when it has no body, since a FREE record holds its generation only (R1, R5). -/
structure WindowRecord where
  generation : Generation
  body : Option WindowBody
deriving DecidableEq, Repr

/-! ### Matching an access (Section 2) -/

/-- The kinds of fault (R148). -/
inductive FaultKind where
  | noWindow | denied | align | link | targetError | targetTimeout | retryExhausted
deriving DecidableEq, Repr

/-- A copy of a window record as the table answered it to one port, with that port's right (R20, R32). -/
structure Copy where
  window : WindowId
  generation : Generation
  terms : Terms
  right : Right
  epoch : Epoch
deriving DecidableEq, Repr

/-- A lookaside: four entries, and the valid ones in the order of recent use, most recent first (R32). -/
structure Lookaside where
  entries : Vector (Option Copy) 4
  order : List (Fin 4)
deriving DecidableEq, Repr

/-- The bytes carried on the four lanes of a data bus; a lane that carries no byte holds none (R104). -/
abbrev Lanes := Vector (Option Byte) 4

/-- An answer of a port unit to its initiator (R26). A read's DONE carries its bytes, on their lanes. -/
inductive Answer where
  | done (data : Option Lanes)
  | error
  | retry
  | linkFailed
deriving DecidableEq, Repr

/-- A running timer: the limit it was loaded with and the ticks taken since it started (R115). -/
structure Timer where
  limit : Nat
  ticks : Nat
deriving DecidableEq, Repr

/-- The terms under which an access was admitted: the window and epoch it is counted under, its translated address,
and the width and linkable fields of the copy, which travel with it (R27, R34, R38). `posted` says that it is a posted
write (R120). -/
structure Admission where
  window : WindowId
  epoch : Epoch
  sysAddr : SysAddr
  width : Width
  linkable : Bool
  posted : Bool
deriving DecidableEq, Repr

/-- The current access of a port, by its stage (R27, R47). `sent` is false while the walk waits unsent behind a stale
walk (R37). A parked access holds its park window and its park timer (R41). `offered` is set once the access has been
offered to the engine or to the store (R34). -/
inductive CurrentAccess where
  | idle
  | walking (a : Access) (sent : Bool)
  | parked (a : Access) (window : WindowId) (timer : Timer)
  | waiting (a : Access) (adm : Admission) (offered : Bool)
  | onBus (a : Access) (adm : Admission)
deriving DecidableEq, Repr

/-! ### The channels (Section 4) -/

/-- The messages of a port unit to the table (4.1). -/
inductive PortMessage where
  | walk (h : AccessHead)
  | addition (window : WindowId) (epoch : Epoch)
  | subtraction (window : WindowId) (epoch : Epoch)
  | acknowledgement (window : WindowId) (setGeneration : Generation)
  | offlineNotice
  | onlineNotice
deriving DecidableEq, Repr

/-- The messages of the table to a port unit (4.1). The first four are the walk answers of R20. -/
inductive TableMessage where
  | admitted (copy : Copy)
  | denied (copy : Copy) (kind : FaultKind)
  | noWindow
  | park (window : WindowId)
  | shootDown (window : WindowId) (setGeneration : Generation)
  | releaseNotice (window : WindowId)
  | retireNotice (window : WindowId)
deriving DecidableEq, Repr

/-! ### The system bus engine (Sections 5 and 6) -/

/-- Who holds the system bus (R94). -/
inductive BusHolder where
  | free
  | portAccess (p : PortId)
  | storeEntry (p : PortId)
  | external
deriving DecidableEq, Repr

/-- The bus access record (R94). `fromStore` tells a store entry from the port's current access; a store entry in the
record is its port's oldest (R95). -/
structure BusAccess where
  origin : PortId
  fromStore : Bool
  kind : AccessKind
  size : AccessSize
  sysAddr : SysAddr
  data : Lanes
  width : Width
  window : WindowId
  epoch : Epoch
  partsTotal : Nat
  partsDone : Nat
  retryCount : Nat
  retryLimit : Nat
  assembled : Lanes
  abandoned : Bool
deriving DecidableEq, Repr

/-- A part presented on the system bus: its address, size, write or read indication and write data (R104, R106). -/
structure BusPart where
  addr : SysAddr
  size : AccessSize
  isWrite : Bool
  data : Lanes
deriving DecidableEq, Repr

/-- An entry of the posted-write store (R119). -/
structure StoreEntry where
  port : PortId
  portEpoch : PortEpoch
  window : WindowId
  epoch : Epoch
  sysAddr : SysAddr
  size : AccessSize
  data : Lanes
  width : Width
  cls : AccessClass
  level : AccessLevel
  partsDone : Nat
deriving DecidableEq, Repr

/-! ### The reservation monitor (Section 7) -/

/-- A reservation: its granule, a system address whose low four bits are zero, and its window (R134). -/
structure Reservation where
  granule : SysAddr
  window : WindowId
deriving DecidableEq, Repr

/-! ### Fault records (Section 8) -/

/-- A fault as it is offered to a record and held there (R148). `parts` is parts completed and parts total. -/
structure FaultInfo where
  kind : FaultKind
  deferred : Bool
  localAddr : Option LocalAddr
  accessKind : AccessKind
  size : AccessSize
  cls : AccessClass
  level : AccessLevel
  window : Option WindowId
  sysAddr : Option SysAddr
  parts : Option (Nat × Nat)
deriving DecidableEq, Repr

/-- A fault of the device fault record, with its origin port (R161). -/
structure DeviceFault where
  info : FaultInfo
  origin : PortId
deriving DecidableEq, Repr

/-! ### Ports and command slots (Sections 9 and 10) -/

/-- The four port states (R164). -/
inductive PortState where
  | offline | active | fenced | quiescing
deriving DecidableEq, Repr

/-- The role of a port (R165). -/
inductive Role where
  | supervisor | ordinary
deriving DecidableEq, Repr

/-- The management requests, in the order of their kind codes 1 to 17 (R183). -/
inductive RequestKind where
  | define | amend | enable | hold | release | retire | setRights | queryWindow
  | portOnline | portOffline | fence | unfence | clearFault | queryPort
  | setParam | clearDeviceFault | queryDevice
deriving DecidableEq, Repr

/-- A request captured by a slot: its number, the REQUEST word and P0 to P5 (R179). -/
structure Captured where
  number : RequestNumber
  request : Word
  params : Vector Word 6
deriving DecidableEq, Repr

/-- The three slot states (R179). -/
inductive SlotState where
  | idle | pending | complete
deriving DecidableEq, Repr

/-- A command slot (R178 to R181). `held` is a captured request held unsent behind the stale-request flag (R175).
`doneLine` is the port's DONE output. -/
structure Slot where
  state : SlotState
  overrun : Bool
  number : RequestNumber
  request : Word
  params : Vector Word 6
  result : Word
  resultWords : Vector Word 5
  held : Option Captured
  doneLine : Bool
deriving DecidableEq, Repr

/-- A port unit (R27, R32, R148, R164). `offlineRequester` is the port and the request number of the PORT_OFFLINE that
put the port in QUIESCING. `faultLine` is the port's FAULT output, `resetInput` its reset input as it now stands.
`answer` is the last answer the port gave on its local bus, absent from an arrival until the access is answered. -/
structure PortUnit where
  state : PortState
  role : Role
  epoch : PortEpoch
  current : CurrentAccess
  lookaside : Lookaside
  staleWalk : Bool
  staleRequest : Bool
  occupancyCopy : Nat
  offlineRequester : Option (PortId × RequestNumber)
  fault : Option FaultInfo
  overflow : Nat
  faultLine : Bool
  slot : Slot
  resetInput : Bool
  answer : Option Answer
deriving DecidableEq, Repr

/-! ### The blocks' whole state -/

/-- The window table controller: the records, its view of which ports are OFFLINE (4.3), the walks waiting at its
request arbiter, and the arbiter's two rotation orders (R21, R22). -/
structure Table where
  records : Vector WindowRecord 64
  offlineView : Vector Bool 6
  walks : Vector (Option AccessHead) 6
  walkOrder : List PortId
  requestOrder : List PortId
deriving DecidableEq, Repr

/-- What is on its way between blocks: the channels of 4.1, the entry-finished reports not yet taken by each port
(R127), and the management request of each port that its destination has not yet taken (R175, R186). A request to the
table waits at the table's request arbiter; a port or device request waits for its target. -/
structure Links where
  toTable : Vector (List PortMessage) 6
  toPort : Vector (List TableMessage) 6
  engineToTable : List (WindowId × Epoch)
  reports : Vector Nat 6
  requests : Vector (Option Captured) 6
deriving DecidableEq, Repr

/-- The system bus engine (R94, R119, R122), the part it presents, and the request and grant lines of the external
master (R97, R116). `retryTick` says that a tick has been taken since the last port entered the retry waiters (R96,
R115). `presented` is the model's own: how many parts have been presented, so that the number of the part now presented
tells its terminations from those of parts that have ended (R106; notes/assumptions/25.md). -/
structure Engine where
  holder : BusHolder
  access : Option BusAccess
  rotation : List PortId
  retryWaiters : List PortId
  retryTick : Bool
  timer : Option Timer
  part : Option BusPart
  presented : Nat
  store : List StoreEntry
  waitingList : List PortId
  extRequest : Bool
  extGrant : Bool
deriving DecidableEq, Repr

/-- The reservation monitor (R134). -/
structure Monitor where
  reservations : Vector (Option Reservation) 6
  permission : Vector Bool 6
  linkEpoch : Vector (Option Epoch) 64
deriving DecidableEq, Repr

/-- The configuration unit: the straps as sampled, the device parameters (R191), and the device fault record with its
overflow count and the ALERT output (R161, R163). -/
structure ConfigUnit where
  straps : Straps
  parkLimit : Nat
  responseLimit : Nat
  retryLimit : Nat
  ranks : Vector Nat 6
  fault : Option DeviceFault
  overflow : Nat
  alertLine : Bool
deriving DecidableEq, Repr

end Sys2Proof.Machine
end

