-- ==== Sys2Proof/Machine/ResetValues.lean ====
section
/-! DEFINITION. What each block holds at the release of the device reset, given the straps then sampled (R24, R82, R94,
R134, R165, R166, R177, R181, R191). -/

namespace Sys2Proof.Machine

/-- Whether the SUP strap of a port is high; I0 needs none (R165). -/
def strapSupervisor (st : Straps) (p : PortId) : Bool :=
  match p with
  | 0 => true
  | 1 => st.sup1
  | 2 => st.sup2
  | 3 => st.sup3
  | 4 => st.sup4
  | 5 => st.sup5

/-- Whether a port starts ACTIVE: I0 always, the others by their ONL straps (R166). -/
def strapOnline (st : Straps) (p : PortId) : Bool :=
  match p with
  | 0 => true
  | 1 => st.onl1
  | 2 => st.onl2
  | 3 => st.onl3
  | 4 => st.onl4
  | 5 => st.onl5

/-- The width of the boot window from BW1 and BW0 (R24). -/
def bootWidth (st : Straps) : Width :=
  match st.bw1, st.bw0 with
  | false, false => .w8
  | false, true => .w16
  | true, _ => .w32

/-- The fields of the boot window, the rights apart (R24). -/
def bootTerms (st : Straps) : Terms where
  localBase := 0
  sizeCode := 24
  targetBase := if st.btop then 0xFFF000000 else 0
  fetch := .allowed
  level := .any
  width := bootWidth st
  posting := .strict
  linkable := false

/-- The rights of the boot window: READ_WRITE for I0, NONE for the others (R24). -/
def bootRights : Rights := Vector.ofFn fun p => if p = 0 then .readWrite else .noRight

/-- W0, the boot window: LIVE, with generation 0, epoch 0 and nothing outstanding (R24). -/
def bootRecord (st : Straps) : WindowRecord where
  generation := 0
  body := some {
    phase := .live
    terms := bootTerms st
    rights := bootRights
    epoch := 0
    counts := Vector.ofFn fun _ => 0
    pendingOp := none
    shootSet := []
    setGeneration := none }

/-- The records: W0 the boot window, W1 to W63 FREE at generation 0 (R24). -/
def resetRecords (st : Straps) : Vector WindowRecord 64 :=
  Vector.ofFn fun w => if w = 0 then bootRecord st else { generation := 0, body := none }

/-- The table after device reset (R22, R24, R82). -/
def resetTable (st : Straps) : Table where
  records := resetRecords st
  offlineView := Vector.ofFn fun p => !strapOnline st p
  walks := Vector.ofFn fun _ => none
  walkOrder := allPorts
  requestOrder := allPorts

/-- Every channel empty and no request under way (R21, R77). -/
def resetLinks : Links where
  toTable := Vector.ofFn fun _ => []
  toPort := Vector.ofFn fun _ => []
  engineToTable := []
  reports := Vector.ofFn fun _ => 0
  requests := Vector.ofFn fun _ => none

/-- A lookaside with four invalid entries (R32). -/
def emptyLookaside : Lookaside where
  entries := Vector.ofFn fun _ => none
  order := []

/-- A slot after device reset (R181). -/
def resetSlot : Slot where
  state := .idle
  overrun := false
  number := 0
  request := 0
  params := Vector.ofFn fun _ => 0
  result := 0
  resultWords := Vector.ofFn fun _ => 0
  held := none
  doneLine := false

/-- A port unit after device reset (R177), its reset input as given: an input is not a value the reset sets. -/
def resetPortUnit (st : Straps) (p : PortId) (resetInput : Bool) : PortUnit where
  state := if strapOnline st p then .active else .offline
  role := if strapSupervisor st p then .supervisor else .ordinary
  epoch := 0
  current := .idle
  lookaside := emptyLookaside
  staleWalk := false
  staleRequest := false
  occupancyCopy := 0
  offlineRequester := none
  fault := none
  overflow := 0
  faultLine := false
  slot := resetSlot
  resetInput := resetInput
  answer := none

/-- The engine after device reset (R94, R122, R131). The external master's request line is as given, and so is the number of
parts presented: a termination that comes after the reset belongs to a part before it (R118). -/
def resetEngine (extRequest : Bool) (presented : Nat) : Engine where
  holder := .free
  access := none
  rotation := allPorts
  retryWaiters := []
  retryTick := false
  timer := none
  part := none
  presented := presented
  store := []
  waitingList := []
  extRequest := extRequest
  extGrant := false

/-- The reservation monitor after device reset (R134). -/
def resetMonitor (st : Straps) : Monitor where
  reservations := Vector.ofFn fun _ => none
  permission := Vector.ofFn fun p => strapOnline st p
  linkEpoch := Vector.ofFn fun w => if w = 0 then some 0 else none

/-- The configuration unit after device reset: the straps sampled, each parameter at its default, the device fault
record empty and ALERT released (R161, R191). -/
def resetConfig (st : Straps) : ConfigUnit where
  straps := st
  parkLimit := 32
  responseLimit := 64
  retryLimit := 3
  ranks := Vector.ofFn fun _ => 1
  fault := none
  overflow := 0
  alertLine := false

end Sys2Proof.Machine
end

