-- ==== Sys2Proof/Machine/State.lean ====
section
/-! DEFINITION. The state of the part: its blocks as 00_scope.md 0.3 gives them, what is under way between them, and the
queue of commands that wait. INVENTORY.md, '## State', lists every piece with the rule that names it. -/

namespace Sys2Proof.Machine

/-- The whole state of the part. `pending` is the queue of waiting commands, first in, first out; everything else is the
manual's. -/
structure State where
  ports : Vector PortUnit 6
  links : Links
  table : Table
  engine : Engine
  monitor : Monitor
  config : ConfigUnit
  pending : List Instr
deriving DecidableEq, Repr

/-- The reasons a step can stop with a fault: none. Every event of the manual has an outcome in which the part goes on;
its faults are records in State (Section 8), not stops of the machine. No meaning raises one, which is safe. -/
inductive Fault where
deriving DecidableEq, Repr

/-- The reasons a step can be refused. -/
inductive Refusal where
  /-- Raised by an arm of exec whose command has no meaning yet, naming the command's row. Safe: the machine stops. -/
  | notModelled (mnemonic : String)
deriving DecidableEq, Repr

/-- The straps State.reset takes: all low. DESIGN CHOICE, notes/assumptions/1.md: the manual makes them inputs. -/
def lowStraps : Straps where
  sup1 := false
  sup2 := false
  sup3 := false
  sup4 := false
  sup5 := false
  onl1 := false
  onl2 := false
  onl3 := false
  onl4 := false
  onl5 := false
  bw1 := false
  bw0 := false
  btop := false

/-- The part right after a device reset with every strap low and no input asserted (R24, R94, R134, R177, R191), with
no command waiting. -/
def State.reset : State where
  ports := Vector.ofFn fun p => resetPortUnit lowStraps p false
  links := resetLinks
  table := resetTable lowStraps
  engine := resetEngine false 0
  monitor := resetMonitor lowStraps
  config := resetConfig lowStraps
  pending := []

end Sys2Proof.Machine
end

