-- ==== Sys2Proof/Machine/Ops.lean ====
section
/-! DEFINITION. The named operations over State that every meaning is built from: reading and writing the state of one
port, one record or one channel; sending and taking messages; the reservation monitor's changes; the rotation orders. -/

namespace Sys2Proof.Machine

/-! ### Vectors indexed by ports, windows, entries and epochs -/

/-- The vector with the element at `i` replaced. -/
def vput {α : Type} {n : Nat} (v : Vector α n) (i : Fin n) (x : α) : Vector α n :=
  v.set i.val x i.isLt

/-- The vector with `f` applied to each element. -/
def vmap {α β : Type} {n : Nat} (f : α → β) (v : Vector α n) : Vector β n :=
  Vector.ofFn fun i => f (v.get i)

/-- The vector with every element the same. -/
def vfill {α : Type} (n : Nat) (x : α) : Vector α n := Vector.ofFn fun _ => x

/-! ### Orders and sets of ports -/

/-- The order with `p` moved to its end, the others keeping their relative places (R22, R99). -/
def moveToEnd (p : PortId) (order : List PortId) : List PortId :=
  order.filter (fun q => q != p) ++ [p]

/-- The set of ports without `p` (R16, R96). -/
def removePort (p : PortId) (set : List PortId) : List PortId :=
  set.filter fun q => q != p

/-! ### One port's state -/

/-- Port p's unit. -/
def State.port (s : State) (p : PortId) : PortUnit := s.ports.get p

/-- Port p's unit replaced. -/
def State.setPort (s : State) (p : PortId) (u : PortUnit) : State :=
  { s with ports := vput s.ports p u }

/-- Port p's unit changed by `f`. -/
def State.modifyPort (s : State) (p : PortId) (f : PortUnit → PortUnit) : State :=
  s.setPort p (f (s.port p))

/-- The current access of port p becomes `c` (R47). -/
def State.setCurrent (s : State) (p : PortId) (c : CurrentAccess) : State :=
  s.modifyPort p fun u => { u with current := c }

/-- Port p's stale-walk flag (R37). -/
def State.setStaleWalk (s : State) (p : PortId) (b : Bool) : State :=
  s.modifyPort p fun u => { u with staleWalk := b }

/-- Port p's lookaside becomes `l`. -/
def State.setLookaside (s : State) (p : PortId) (l : Lookaside) : State :=
  s.modifyPort p fun u => { u with lookaside := l }

/-- Port p's command slot changed by `f`. -/
def State.modifySlot (s : State) (p : PortId) (f : Slot → Slot) : State :=
  s.modifyPort p fun u => { u with slot := f u.slot }

/-- The port unit answers its initiator (R26). -/
def State.answer (s : State) (p : PortId) (a : Answer) : State :=
  s.modifyPort p fun u => { u with answer := some a }

/-! ### One window record's state -/

/-- The record of window w. -/
def State.record (s : State) (w : WindowId) : WindowRecord := s.table.records.get w

/-- The record of window w replaced. -/
def State.setRecord (s : State) (w : WindowId) (r : WindowRecord) : State :=
  { s with table := { s.table with records := vput s.table.records w r } }

/-- The body of window w replaced, its generation kept. -/
def State.setBody (s : State) (w : WindowId) (b : Option WindowBody) : State :=
  s.setRecord w { s.record w with body := b }

/-- The state of a record (1.2). -/
def WindowRecord.windowState (r : WindowRecord) : WindowState :=
  match r.body with
  | none => .free
  | some b =>
    match b.phase with
    | .staged => .staged
    | .live => .live
    | .held => .held
    | .draining => .draining

/-- The in-flight count of a record for an epoch; a FREE record's counts are zero (R1). -/
def WindowRecord.count (r : WindowRecord) (e : Epoch) : Nat :=
  match r.body with
  | none => 0
  | some b => b.counts.get e

/-- The outstanding shoot-down set of a record; a FREE record's is empty (R1). -/
def WindowRecord.outstanding (r : WindowRecord) : List PortId :=
  match r.body with
  | none => []
  | some b => b.shootSet

/-- The count of window w for an epoch is the greatest that R12 allows. The table then takes no addition and gives no ADMIT
that would raise it: the message waits for a subtraction that is on its way (DESIGN CHOICE, notes/assumptions/27.md). -/
def State.countFull (s : State) (w : WindowId) (e : Epoch) : Bool :=
  decide (Config.countLimit ≤ (s.record w).count e)

/-- The other epoch (R9). -/
def otherEpoch (e : Epoch) : Epoch := 1 - e

/-- The body with the count for an epoch changed by `f`. -/
def WindowBody.modifyCount (b : WindowBody) (e : Epoch) (f : Nat → Nat) : WindowBody :=
  { b with counts := vput b.counts e (f (b.counts.get e)) }

/-- The body without `p` in its outstanding set; the set generation goes when the set empties (R16, R80). -/
def WindowBody.removeOutstanding (b : WindowBody) (p : PortId) : WindowBody :=
  let set := removePort p b.shootSet
  { b with shootSet := set, setGeneration := if set = [] then none else b.setGeneration }

/-! ### Channels (4.1) -/

/-- The messages of port p that the table has not yet taken. -/
def State.toTable (s : State) (p : PortId) : List PortMessage := s.links.toTable.get p

/-- The messages of the table that port p has not yet taken. -/
def State.toPort (s : State) (p : PortId) : List TableMessage := s.links.toPort.get p

/-- The walk of port p that waits at the table's request arbiter (R21). -/
def State.waitingWalk (s : State) (p : PortId) : Option AccessHead := s.table.walks.get p

def State.setToTable (s : State) (p : PortId) (l : List PortMessage) : State :=
  { s with links := { s.links with toTable := vput s.links.toTable p l } }

def State.setToPort (s : State) (p : PortId) (l : List TableMessage) : State :=
  { s with links := { s.links with toPort := vput s.links.toPort p l } }

def State.setWaitingWalk (s : State) (p : PortId) (w : Option AccessHead) : State :=
  { s with table := { s.table with walks := vput s.table.walks p w } }

/-- A walk that stands first on its channel reaches the table's request arbiter, where it waits, and messages sent after
it may be taken before it (R46, R76). -/
def State.settleWalk (s : State) (p : PortId) : State :=
  match s.toTable p, s.waitingWalk p with
  | .walk h :: rest, none => (s.setToTable p rest).setWaitingWalk p (some h)
  | _, _ => s

/-- Port p sends a message to the table, behind everything it has sent (R76). -/
def State.sendToTable (s : State) (p : PortId) (m : PortMessage) : State :=
  (s.setToTable p (s.toTable p ++ [m])).settleWalk p

/-- The table takes the first message of port p's channel, `rest` being what follows it (R76). -/
def State.takeFromPort (s : State) (p : PortId) (rest : List PortMessage) : State :=
  (s.setToTable p rest).settleWalk p

/-- The table sends a message to port p, behind everything it has sent (R76). -/
def State.sendToPort (s : State) (p : PortId) (m : TableMessage) : State :=
  s.setToPort p (s.toPort p ++ [m])

/-- The table sends a message to each port of a list, in one event (R53). -/
def State.sendToPorts (s : State) (ps : List PortId) (m : TableMessage) : State :=
  ps.foldl (fun t p => t.sendToPort p m) s

/-- The engine sends a subtraction on its own channel (R11). The access it is for stays counted until the table takes it
(R12); how the count still keeps its bound is `State.countFull`. -/
def State.engineSubtract (s : State) (w : WindowId) (e : Epoch) : State :=
  { s with links := { s.links with engineToTable := s.links.engineToTable ++ [(w, e)] } }

/-- The ports that the table views as not OFFLINE: those placed in a set and sent notices (R15, R53, R84). -/
def State.onlinePorts (s : State) : List PortId :=
  allPorts.filter fun p => !(s.table.offlineView.get p)

/-! ### Management requests on their way to a destination (R175, R186) -/

/-- The request of port p that its destination has not yet taken. -/
def State.requestOf (s : State) (p : PortId) : Option Captured := s.links.requests.get p

def State.setRequest (s : State) (p : PortId) (c : Option Captured) : State :=
  { s with links := { s.links with requests := vput s.links.requests p c } }

/-- A destination takes port p's request and tells the port unit so; the stale-request flag clears, and a request held
at the slot is sent in the same event (R175, R186). -/
def State.requestTaken (s : State) (p : PortId) : State :=
  let held := (s.port p).slot.held
  (s.modifyPort p fun u =>
    { u with staleRequest := false, slot := { u.slot with held := none } }).setRequest p held

/-! ### Timers (R115) -/

/-- The timer has taken a tick. -/
def Timer.tick (t : Timer) : Timer := { t with ticks := t.ticks + 1 }

/-- A timer loaded with a limit of n expires at the (n+1)th tick taken after it started (R115). -/
def Timer.expired (t : Timer) : Bool := t.limit < t.ticks

/-- A port's park timer, which runs only while its current access is PARKED, takes a tick (R41). -/
def CurrentAccess.tick : CurrentAccess → CurrentAccess
  | .parked a w t => .parked a w t.tick
  | .idle => .idle
  | .walking a sent => .walking a sent
  | .waiting a adm offered => .waiting a adm offered
  | .onBus a adm => .onBus a adm

/-- The park timer of a current access has expired (R41, R115). -/
def CurrentAccess.expired : CurrentAccess → Bool
  | .parked _ _ t => t.expired
  | .idle => false
  | .walking _ _ => false
  | .waiting _ _ _ => false
  | .onBus _ _ => false

/-! ### The reservation monitor (Section 7) -/

/-- The reservation record of port p (R134). -/
def State.reservation (s : State) (p : PortId) : Option Reservation := s.monitor.reservations.get p

def State.setReservation (s : State) (p : PortId) (r : Option Reservation) : State :=
  { s with monitor := { s.monitor with reservations := vput s.monitor.reservations p r } }

def State.setPermission (s : State) (p : PortId) (b : Bool) : State :=
  { s with monitor := { s.monitor with permission := vput s.monitor.permission p b } }

def State.setLinkEpoch (s : State) (w : WindowId) (e : Option Epoch) : State :=
  { s with monitor := { s.monitor with linkEpoch := vput s.monitor.linkEpoch w e } }

/-- The granule of a system address: the address with its low four bits cleared (R134). -/
def granuleOf (a : SysAddr) : SysAddr := (a >>> 4) <<< 4

/-- Only the reservations that `keep` keeps stay; the others are broken. -/
def State.keepReservations (s : State) (keep : Reservation → Bool) : State :=
  { s with monitor := { s.monitor with reservations := vmap (fun r => r.filter keep) s.monitor.reservations } }

/-- Every reservation on the granule that contains `a` is broken (R141). -/
def State.breakGranule (s : State) (a : SysAddr) : State :=
  s.keepReservations fun r => r.granule != granuleOf a

/-- Every reservation that names window w is broken (R143). -/
def State.breakWindow (s : State) (w : WindowId) : State :=
  s.keepReservations fun r => r.window != w

/-- What the monitor does when a linked read's part ends ACK: it sets the port's reservation if the permission flag is
YES and the link epoch is present and equal to the epoch reported (R137). -/
def State.reportLinkedRead (s : State) (p : PortId) (a : SysAddr) (w : WindowId) (e : Epoch) : State :=
  if s.monitor.permission.get p && s.monitor.linkEpoch.get w == some e then
    s.setReservation p (some { granule := granuleOf a, window := w })
  else s

/-! ### The engine's state -/

/-- The engine's state changed by `f`. -/
def State.modifyEngine (s : State) (f : Engine → Engine) : State := { s with engine := f s.engine }

/-- The oldest unfinished store entry of port p (R95): an entry leaves the store when it finishes (R119). -/
def State.oldestEntry (s : State) (p : PortId) : Option StoreEntry :=
  s.engine.store.find? fun e => e.port == p

/-- The store occupancy of port p: the number of its entries in the store (R119). -/
def State.occupancy (s : State) (p : PortId) : Nat :=
  s.engine.store.countP fun e => e.port == p

/-- The store without port p's oldest entry (R119, R127). -/
def removeOldest (p : PortId) (store : List StoreEntry) : List StoreEntry :=
  store.eraseP fun e => e.port == p

/-- The store with port p's oldest entry changed by `f` (R107). -/
def modifyOldest (p : PortId) (f : StoreEntry → StoreEntry) : List StoreEntry → List StoreEntry
  | [] => []
  | e :: rest => if e.port == p then f e :: rest else e :: modifyOldest p f rest

end Sys2Proof.Machine
end

