-- ==== Sys2Proof/Machine/Operands.lean ====
section
/-! DEFINITION. Operands and word formats: address ranges and translation (1.6), alignment and the aperture (2.3), lanes
and parts (5.5), the words that software writes (R183, R185) and the words it reads (R178, R184, R187 to R190). -/

namespace Sys2Proof

/-! ### Accesses, slot words and result codes by the manual's tables -/

/-- The local address lies in the aperture, FFFF_F000h to FFFF_FFFFh (R29). -/
def inAperture (a : LocalAddr) : Bool := Config.apertureBase ≤ a.toNat

/-- The offset of an aperture address from FFFF_F000h, its low 12 bits (R178). -/
def apertureOffset (a : LocalAddr) : Nat := a.toNat % 0x1000

/-- The alignment check of R29: the address is a multiple of the size, and an aperture access has size 4. -/
def AccessHead.aligned (h : AccessHead) : Bool :=
  h.addr.toNat % h.size.bytes == 0 && !(inAperture h.addr && h.size != .four)

/-- A READ or WRITE of size 4 at an aperture address that is a multiple of 4 (R28). -/
def AccessHead.isApertureWord (h : AccessHead) : Bool :=
  inAperture h.addr && h.size == .four && h.addr.toNat % 4 == 0 && (h.kind == .read || h.kind == .write)

/-- A write kind: WRITE or CONDITIONAL_WRITE (R104). -/
def AccessKind.isWrite : AccessKind → Bool
  | .write => true
  | .conditionalWrite => true
  | .read => false
  | .linkedRead => false

/-- A linked kind: LINKED_READ or CONDITIONAL_WRITE (2.3, step 7). -/
def AccessKind.isLinked : AccessKind → Bool
  | .linkedRead => true
  | .conditionalWrite => true
  | .read => false
  | .write => false

/-- The number of an access kind (R189). -/
def AccessKind.code : AccessKind → Nat
  | .read => 0
  | .write => 1
  | .linkedRead => 2
  | .conditionalWrite => 3

/-- The number of a size (R189). -/
def AccessSize.code : AccessSize → Nat
  | .one => 0
  | .two => 1
  | .four => 2

/-- The code of a result (R184). -/
def ResultCode.number : ResultCode → Nat
  | .done => 1
  | .cancelled => 2
  | .busy => 3
  | .stale => 4
  | .state => 5
  | .overlap => 6
  | .invalid => 7
  | .denied => 8
  | .self => 9
  | .noSuch => 10

/-- The offset of a slot word without behaviour of its own (R178). -/
def PlainWord.offset : PlainWord → Nat
  | .request => 0x000
  | .param i => 0x004 + 4 * i.val
  | .identity => 0x01C
  | .status => 0x024
  | .result => 0x028
  | .resultWord i => 0x02C + 4 * i.val

end Sys2Proof

namespace Sys2Proof.Machine

/-! ### Addresses -/

/-- The size of a window in bytes, 2 to the power of its code (R1). -/
def Terms.size (t : Terms) : Nat := 2 ^ t.sizeCode.val

/-- The address lies in the window's local range (R1, R17). -/
def Terms.contains (t : Terms) (a : LocalAddr) : Bool :=
  t.localBase.toNat ≤ a.toNat && a.toNat < t.localBase.toNat + t.size

/-- The system address of a local address: the target base plus the offset from the local base (R19). -/
def Terms.translate (t : Terms) (a : LocalAddr) : SysAddr :=
  BitVec.ofNat 36 (t.targetBase.toNat + (a.toNat - t.localBase.toNat))

/-- The local ranges of two windows share at least one address (R18). -/
def Terms.meets (t u : Terms) : Bool :=
  t.localBase.toNat < u.localBase.toNat + u.size && u.localBase.toNat < t.localBase.toNat + t.size

/-! ### Lanes and parts (R103, R104) -/

/-- No byte on any lane. -/
def noLanes : Lanes := vfill 4 none

/-- The lane of the byte at a system address. -/
def laneOf (a : SysAddr) : Nat := a.toNat % 4

/-- Lane i lies among the lanes of `n` bytes from lane `at0`. -/
def laneIn (at0 n i : Nat) : Bool := at0 ≤ i && i < at0 + n

/-- The bytes of a 32-bit bus word on the lanes of `n` bytes from lane `at0`; the other lanes carry none. -/
def lanesOfWord (w : Word) (at0 n : Nat) : Lanes :=
  Vector.ofFn fun i => if laneIn at0 n i.val then some (w.extractLsb' (8 * i.val) 8) else none

/-- The bytes on the lanes of `n` bytes from lane `at0`. -/
def restrictLanes (l : Lanes) (at0 n : Nat) : Lanes :=
  Vector.ofFn fun i => if laneIn at0 n i.val then l.get i else none

/-- The bytes of `l`, with those of `m` placed over them (R104). -/
def placeLanes (l m : Lanes) : Lanes :=
  Vector.ofFn fun i => (m.get i).or (l.get i)

/-- The width in bytes (R103). -/
def Width.bytes : Width → Nat
  | .w8 => 1
  | .w16 => 2
  | .w32 => 4

/-- The part size: the lesser of the access size and the width (R103). -/
def partSize (size : AccessSize) (width : Width) : AccessSize :=
  match size, width with
  | .one, _ => .one
  | .two, .w8 => .one
  | .two, _ => .two
  | .four, .w8 => .one
  | .four, .w16 => .two
  | .four, .w32 => .four

/-- The parts total: the access size divided by the part size (R103). -/
def partsTotal (size : AccessSize) (width : Width) : Nat :=
  size.bytes / (partSize size width).bytes

/-- The next part of an access not yet completed, as it is presented on the system bus (R104). -/
def BusAccess.nextPart (r : BusAccess) : BusPart :=
  let size := partSize r.size r.width
  let addr := r.sysAddr + BitVec.ofNat 36 (r.partsDone * size.bytes)
  { addr := addr
    size := size
    isWrite := r.kind.isWrite
    data := if r.kind.isWrite then restrictLanes r.data (laneOf addr) size.bytes else noLanes }

/-! ### Fields of a word (R182) -/

/-- The `n` bits of a word from bit `lo`, as an unsigned number. -/
def field (w : Word) (lo n : Nat) : Nat := w.toNat / 2 ^ lo % 2 ^ n

/-- A bit as a number. -/
def bit (b : Bool) : Nat := if b then 1 else 0

/-! ### The words that software writes (R183, R185) -/

/-- The request that a kind code names; codes 0 and 18 to 31 name none (R183). -/
def kindOfCode : Nat → Option RequestKind
  | 1 => some .define
  | 2 => some .amend
  | 3 => some .enable
  | 4 => some .hold
  | 5 => some .release
  | 6 => some .retire
  | 7 => some .setRights
  | 8 => some .queryWindow
  | 9 => some .portOnline
  | 10 => some .portOffline
  | 11 => some .fence
  | 12 => some .unfence
  | 13 => some .clearFault
  | 14 => some .queryPort
  | 15 => some .setParam
  | 16 => some .clearDeviceFault
  | 17 => some .queryDevice
  | _ => none

/-- Where a request goes: the table, the target port unit, or the configuration unit (R183). -/
inductive Destination where
  | table | port | config
deriving DecidableEq, Repr

def RequestKind.destination : RequestKind → Destination
  | .define | .amend | .enable | .hold | .release | .retire | .setRights | .queryWindow => .table
  | .portOnline | .portOffline | .fence | .unfence | .clearFault | .queryPort => .port
  | .setParam | .clearDeviceFault | .queryDevice => .config

/-- The kind of a captured request (R183). -/
def Captured.kind (c : Captured) : Option RequestKind := kindOfCode (field c.request 24 5)

/-- The target field: a window index, a port index or a parameter selector (R183). -/
def Captured.target (c : Captured) : Nat := field c.request 16 7

/-- The ANY flag (R183). -/
def Captured.any (c : Captured) : Bool := field c.request 23 1 == 1

/-- The expected generation (R183). -/
def Captured.expected (c : Captured) : Generation := BitVec.ofNat 16 (field c.request 0 16)

/-- P0 as an unsigned number: the selector of a query, or the new value of SET_PARAM (R185). -/
def Captured.value (c : Captured) : Nat := (c.params.get 0).toNat

/-- The encoding of a right (R185). -/
def rightOfCode : Nat → Option Right
  | 0 => some .noRight
  | 1 => some .read
  | 2 => some .readWrite
  | _ => none

def Right.code : Right → Nat
  | .noRight => 0
  | .read => 1
  | .readWrite => 2

/-- The encoding of a width (R185). -/
def widthOfCode : Nat → Option Width
  | 0 => some .w8
  | 1 => some .w16
  | 2 => some .w32
  | _ => none

def Width.code : Width → Nat
  | .w8 => 0
  | .w16 => 1
  | .w32 => 2

/-- The right that a P3 word gives port p; the encoding 3 gives none (R185). -/
def rightField (w : Word) (p : PortId) : Option Right := rightOfCode (field w (2 * p.val) 2)

/-- The rights list of a P3 word; absent if some field of it encodes no permitted value (R2, R185). -/
def decodeRights (w : Word) : Option Rights :=
  if allPorts.all fun p => (rightField w p).isSome then
    some (Vector.ofFn fun p => (rightField w p).getD .noRight)
  else none

/-- The fields of P0 to P2; absent if a field encodes no permitted value (R2, R185). Size codes 0 to 11 are refused by
the validity check. -/
def decodeTerms (p0 p1 p2 : Word) : Option Terms :=
  match widthOfCode (field p2 18 2) with
  | none => none
  | some width => some {
      localBase := p0
      targetBase := BitVec.ofNat 36 (p1.toNat + field p2 0 4 * 2 ^ 32)
      sizeCode := Fin.ofNat 32 (field p2 8 5)
      fetch := if field p2 16 1 = 0 then .allowed else .barred
      level := if field p2 17 1 = 0 then .any else .privileged
      width := width
      posting := if field p2 20 1 = 0 then .strict else .posted
      linkable := field p2 21 1 != 0 }

/-- The validity of a field set, its encodings apart (R2). -/
def Terms.valid (t : Terms) : Bool :=
  12 ≤ t.sizeCode.val
    && t.localBase.toNat % t.size == 0
    && t.localBase.toNat + t.size ≤ Config.apertureBase
    && t.targetBase.toNat % t.size == 0
    && t.targetBase.toNat + t.size ≤ 2 ^ 36
    && (!t.linkable || t.width == .w32)

/-- The field set that DEFINE and AMEND carry in P0 to P3, if it is valid (R2, R55, R185). -/
def Captured.fieldSet (c : Captured) : Option (Terms × Rights) :=
  match decodeTerms (c.params.get 0) (c.params.get 1) (c.params.get 2), decodeRights (c.params.get 3) with
  | some t, some r => if t.valid then some (t, r) else none
  | _, _ => none

/-! ### The words that software reads -/

/-- Q0 to Q4 all 0. -/
def zeroWords : Vector Word 5 := vfill 5 0

/-- Q0 to Q4 from five numbers. -/
def wordsOf (q0 q1 q2 q3 q4 : Nat) : Vector Word 5 :=
  Vector.ofFn fun i =>
    match i with
    | 0 => BitVec.ofNat 32 q0
    | 1 => BitVec.ofNat 32 q1
    | 2 => BitVec.ofNat 32 q2
    | 3 => BitVec.ofNat 32 q3
    | 4 => BitVec.ofNat 32 q4

/-- The RESULT word: code, generation-present bit and generation (R184). -/
def resultWord (code : ResultCode) (generation : Option Generation) : Word :=
  match generation with
  | none => BitVec.ofNat 32 code.number
  | some g => BitVec.ofNat 32 (code.number + 2 ^ 8 + g.toNat * 2 ^ 16)

/-- The STATUS word (R184). -/
def Slot.statusWord (sl : Slot) : Word :=
  let st := match sl.state with
    | .idle => 0
    | .pending => 1
    | .complete => 2
  BitVec.ofNat 32 (st + bit sl.overrun * 2 ^ 8)

/-- The IDENTITY word: the port's index, and bit 8 for a SUPERVISOR (R178). -/
def identityWord (p : PortId) (role : Role) : Word :=
  BitVec.ofNat 32 (p.val + bit (role == .supervisor) * 2 ^ 8)

/-- The P2 word of a window's fields (R185). -/
def Terms.word2 (t : Terms) : Nat :=
  t.targetBase.toNat / 2 ^ 32
    + t.sizeCode.val * 2 ^ 8
    + bit (t.fetch == .barred) * 2 ^ 16
    + bit (t.level == .privileged) * 2 ^ 17
    + t.width.code * 2 ^ 18
    + bit (t.posting == .posted) * 2 ^ 20
    + bit t.linkable * 2 ^ 21

/-- The P1 word of a window's fields (R185). -/
def Terms.word1 (t : Terms) : Nat := t.targetBase.toNat % 2 ^ 32

/-- The P3 word of a rights list (R185). -/
def rightsWord (r : Rights) : Nat :=
  (r.get 0).code + (r.get 1).code * 2 ^ 2 + (r.get 2).code * 2 ^ 4
    + (r.get 3).code * 2 ^ 6 + (r.get 4).code * 2 ^ 8 + (r.get 5).code * 2 ^ 10

/-- A set of ports as a word, bit k set when Ik is in it (R187). -/
def portSetWord (set : List PortId) : Nat :=
  bit (set.contains 0) + bit (set.contains 1) * 2 + bit (set.contains 2) * 4
    + bit (set.contains 3) * 8 + bit (set.contains 4) * 16 + bit (set.contains 5) * 32

/-- The number of a window state (R187). -/
def WindowState.code : WindowState → Nat
  | .free => 0
  | .staged => 1
  | .live => 2
  | .held => 3
  | .draining => 4

/-- Bits 25 to 30 of Q0 for a pending operation: kind, requester and flags (R187). -/
def pendingWord (o : Option PendingOp) : Nat :=
  match o with
  | none => 0
  | some (.hold q _ settled) => 1 * 2 ^ 24 + q.val * 2 ^ 26 + bit settled * 2 ^ 29
  | some (.retire q _) => 2 * 2 ^ 24 + q.val * 2 ^ 26
  | some (.revise q _ narrowing) => 3 * 2 ^ 24 + q.val * 2 ^ 26 + bit narrowing * 2 ^ 30

/-- An in-flight count in its field of five bits, which holds every count that R12 allows (R187). -/
def countField (n : Nat) : Nat := n % 2 ^ 5

/-- QUERY_WINDOW's contents for a record, with selector 0 or 1 (R187). -/
def windowWords (r : WindowRecord) (selector : Nat) : Vector Word 5 :=
  match r.body with
  | none => zeroWords
  | some b =>
    let head := r.windowState.code + 2 ^ 3
    if selector = 0 then
      wordsOf head b.terms.localBase.toNat b.terms.word1 b.terms.word2 (rightsWord b.rights)
    else
      wordsOf
        (head + b.epoch.val * 2 ^ 4 + countField (b.counts.get 0) * 2 ^ 8 + countField (b.counts.get 1) * 2 ^ 16
          + pendingWord b.pendingOp)
        (portSetWord b.shootSet
          + (match b.setGeneration with
              | none => 0
              | some g => 2 ^ 8 + g.toNat * 2 ^ 16))
        0 0 0

/-- The number of a port state (R188). -/
def PortState.code : PortState → Nat
  | .offline => 0
  | .active => 1
  | .fenced => 2
  | .quiescing => 3

/-- The number of a stage (R188). -/
def CurrentAccess.stageCode : CurrentAccess → Nat
  | .idle => 0
  | .walking _ _ => 1
  | .parked _ _ _ => 2
  | .waiting _ _ _ => 3
  | .onBus _ _ => 4

/-- QUERY_PORT's contents with selector 0 (R188). -/
def portWords (u : PortUnit) (occupancy : Nat) (res : Option Reservation) : Vector Word 5 :=
  let head := u.state.code + bit (u.role == .supervisor) * 2 ^ 2 + u.current.stageCode * 2 ^ 4
    + occupancy * 2 ^ 8 + u.epoch.toNat * 2 ^ 16
  match res with
  | none => wordsOf head 0 0 0 0
  | some r => wordsOf head (1 + r.window.val * 2 ^ 8) (r.granule.toNat % 2 ^ 32) (r.granule.toNat / 2 ^ 32) 0

/-- QUERY_PORT's contents for lookaside entry i (R188). -/
def lookasideWords (l : Lookaside) (i : Fin 4) : Vector Word 5 :=
  match l.entries.get i with
  | none => zeroWords
  | some c => wordsOf
      (1 + l.order.idxOf i * 2 + c.epoch.val * 2 ^ 3 + c.right.code * 2 ^ 4 + c.window.val * 2 ^ 8
        + c.generation.toNat * 2 ^ 16)
      c.terms.localBase.toNat c.terms.word1 c.terms.word2 0

/-- The number of a fault kind (R189). -/
def FaultKind.code : FaultKind → Nat
  | .noWindow => 1
  | .denied => 2
  | .align => 3
  | .link => 4
  | .targetError => 5
  | .targetTimeout => 6
  | .retryExhausted => 7

/-- A fault record in Q0 to Q4, with its overflow count; `origin` is present only for the device record (R189). -/
def faultWords (f : Option FaultInfo) (origin : Option PortId) (overflow : Nat) : Vector Word 5 :=
  match f with
  | none => wordsOf 0 0 0 0 overflow
  | some i => wordsOf
      (1 + i.kind.code * 2 + bit i.deferred * 2 ^ 4 + i.accessKind.code * 2 ^ 5 + i.size.code * 2 ^ 7
        + bit (i.cls == .fetch) * 2 ^ 9 + bit (i.level == .privileged) * 2 ^ 10
        + bit i.localAddr.isSome * 2 ^ 11 + bit i.window.isSome * 2 ^ 12 + bit i.sysAddr.isSome * 2 ^ 13
        + bit i.parts.isSome * 2 ^ 14 + bit origin.isSome * 2 ^ 15
        + (i.window.elim 0 Fin.val) * 2 ^ 16
        + (i.parts.elim 0 Prod.fst) * 2 ^ 22 + (i.parts.elim 0 Prod.snd) * 2 ^ 24
        + (origin.elim 0 Fin.val) * 2 ^ 27)
      (i.localAddr.elim 0 BitVec.toNat)
      (i.sysAddr.elim 0 fun a => a.toNat % 2 ^ 32)
      (i.sysAddr.elim 0 fun a => a.toNat / 2 ^ 32)
      overflow

/-- QUERY_DEVICE's contents with selector 0 (R190). -/
def deviceWords (c : ConfigUnit) (entries waiters : Nat) (occupancy : PortId → Nat) : Vector Word 5 :=
  wordsOf
    (c.parkLimit + c.retryLimit * 2 ^ 8 + c.responseLimit * 2 ^ 16)
    (c.ranks.get 0 + c.ranks.get 1 * 2 ^ 2 + c.ranks.get 2 * 2 ^ 4 + c.ranks.get 3 * 2 ^ 6
      + c.ranks.get 4 * 2 ^ 8 + c.ranks.get 5 * 2 ^ 10)
    (entries + waiters * 2 ^ 8)
    (occupancy 0 + occupancy 1 * 2 ^ 4 + occupancy 2 * 2 ^ 8 + occupancy 3 * 2 ^ 12
      + occupancy 4 * 2 ^ 16 + occupancy 5 * 2 ^ 20)
    0

end Sys2Proof.Machine
end

