-- ==== Sys2Proof/Machine/Flags.lean ====
section
/-! DEFINITION. The records and flags that software and the output lines show: results taken by command slots with
the DONE line (R180), the clearing of a slot (R175), the port and device fault records with FAULT, ALERT and fencing
(Section 8). -/

namespace Sys2Proof.Machine

/-! ### Command slots -/

/-- The slot takes a result: RESULT and Q0 to Q4 are written, the slot is COMPLETE and DONE asserted (R180). -/
def Slot.complete (sl : Slot) (r : Result) : Slot :=
  { sl with
    state := .complete
    result := resultWord r.code r.generation
    resultWords := r.words
    doneLine := true }

/-- The slot waits for the result of the request with this number (R180). -/
def Slot.awaits (sl : Slot) (number : RequestNumber) : Bool :=
  sl.state == .pending && sl.number == number

/-- A result reaches port p's slot: it is taken if the slot is PENDING with the same request number, and discarded
otherwise (R175, R180). It reaches the slot in the event that produces it (R180). -/
def State.postResult (s : State) (p : PortId) (number : RequestNumber) (r : Result) : State :=
  if (s.port p).slot.awaits number then s.modifySlot p fun sl => sl.complete r else s

/-- A result without contents in Q0 to Q4 (R184). -/
def plainResult (code : ResultCode) (generation : Option Generation) : Result :=
  { code := code, generation := generation, words := zeroWords }

/-- A slot as a clearing leaves it: IDLE, every word 0, the request number kept (R175, R181). -/
def Slot.cleared (sl : Slot) : Slot :=
  { sl with
    state := .idle
    overrun := false
    request := 0
    params := vfill 6 0
    result := 0
    resultWords := vfill 5 0
    held := none
    doneLine := false }

/-- Port p's slot is cleared; the stale-request flag is set if a request of the slot has not yet been taken (R175). -/
def State.clearSlot (s : State) (p : PortId) : State :=
  let untaken := (s.requestOf p).isSome
  s.modifyPort p fun u => { u with slot := u.slot.cleared, staleRequest := u.staleRequest || untaken }

/-! ### Fault records -/

/-- An overflow count raised by one, staying at 255 (R148, R151, R161). -/
def raiseOverflow (n : Nat) : Nat := min (n + 1) Config.overflowMax

/-- The port unit with a fault offered to it: an empty record takes it and asserts FAULT (R150); an occupied record
raises the overflow count (R151), and a deferred fault then fences an ACTIVE port (R152). -/
def PortUnit.offerFault (u : PortUnit) (f : FaultInfo) : PortUnit :=
  match u.fault with
  | none => { u with fault := some f, faultLine := true }
  | some _ =>
    { u with
      overflow := raiseOverflow u.overflow
      state := if f.deferred && u.state == .active then .fenced else u.state }

/-- A fault is offered to port p's fault record (R149 to R152). -/
def State.offerFault (s : State) (p : PortId) (f : FaultInfo) : State :=
  s.modifyPort p fun u => u.offerFault f

/-- The port unit with its fault record emptied, the overflow count 0 and FAULT released (R159, R173). -/
def PortUnit.emptyFault (u : PortUnit) : PortUnit :=
  { u with fault := none, overflow := 0, faultLine := false }

/-- An orphaned fault is offered to the device fault record (R161). -/
def State.offerDeviceFault (s : State) (f : FaultInfo) (origin : PortId) : State :=
  match s.config.fault with
  | none => { s with config := { s.config with fault := some { info := f, origin := origin }, alertLine := true } }
  | some _ => { s with config := { s.config with overflow := raiseOverflow s.config.overflow } }

/-- A match fault of an access (R31). -/
def matchFault (h : AccessHead) (kind : FaultKind) (window : Option WindowId) : FaultInfo where
  kind := kind
  deferred := false
  localAddr := some h.addr
  accessKind := h.kind
  size := h.size
  cls := h.cls
  level := h.level
  window := window
  sysAddr := none
  parts := none

/-- The part counts of a failed access: present only where its parts total is more than one (R111, R128). -/
def BusAccess.faultParts (r : BusAccess) : Option (Nat × Nat) :=
  if 1 < r.partsTotal then some (r.partsDone, r.partsTotal) else none

/-- The bus fault of a failed non-posted access (R111). -/
def busFault (kind : FaultKind) (r : BusAccess) (h : AccessHead) : FaultInfo where
  kind := kind
  deferred := false
  localAddr := some h.addr
  accessKind := h.kind
  size := h.size
  cls := h.cls
  level := h.level
  window := some r.window
  sysAddr := some r.sysAddr
  parts := r.faultParts

/-- The deferred fault of a failed store entry (R128). -/
def deferredFault (kind : FaultKind) (r : BusAccess) (e : StoreEntry) : FaultInfo where
  kind := kind
  deferred := true
  localAddr := none
  accessKind := .write
  size := e.size
  cls := e.cls
  level := e.level
  window := some e.window
  sysAddr := some e.sysAddr
  parts := if 1 < r.partsTotal then some (e.partsDone, r.partsTotal) else none

/-- A deferred fault goes to the port's record if the entry's port epoch is the port's, and is orphaned to the device
fault record otherwise (R129). -/
def State.routeDeferred (s : State) (e : StoreEntry) (f : FaultInfo) : State :=
  if e.portEpoch == (s.port e.port).epoch then s.offerFault e.port f else s.offerDeviceFault f e.port

end Sys2Proof.Machine
end

