-- ==== Sys2Proof/Machine/PortUnits.lean ====
section
/-! DEFINITION. What the port units' events share: the lookaside (2.4), the checks of a copy (2.3), walks (2.5), entry
into OFFLINE (R170, R171), and the ending of a current access (R26, R31, R112). -/

namespace Sys2Proof.Machine

/-! ### The checks against a window (2.3, steps 4 to 7) -/

/-- The first of the level, fetch, right and link-form checks that fails, as its fault kind (R3, 2.3). -/
def checkFault (t : Terms) (right : Right) (h : AccessHead) : Option FaultKind :=
  if t.level == .privileged && h.level == .user then some .denied
  else if t.fetch == .barred && h.cls == .fetch && (h.kind == .read || h.kind == .linkedRead) then some .denied
  else if right == .read && h.kind.isWrite then some .denied
  else if h.kind.isLinked && (!t.linkable || h.size != .four) then some .link
  else none

/-! ### The lookaside (2.4) -/

/-- The entries of a lookaside, in the order of their numbers. -/
def entryNumbers : List (Fin 4) := [0, 1, 2, 3]

/-- Entry i holds a copy of window w. -/
def Lookaside.holds (l : Lookaside) (w : WindowId) (i : Fin 4) : Bool :=
  match l.entries.get i with
  | none => false
  | some c => c.window == w

/-- Entry i is valid and contains the address (R33). -/
def Lookaside.covers (l : Lookaside) (a : LocalAddr) (i : Fin 4) : Bool :=
  match l.entries.get i with
  | none => false
  | some c => c.terms.contains a

/-- Entry i is made the most recently used; the other valid entries keep their relative order (R33, R35). -/
def Lookaside.touch (l : Lookaside) (i : Fin 4) : Lookaside :=
  { l with order := i :: l.order.filter fun j => j != i }

/-- The entry that an address hits: the most recently used of the valid entries that contain it (R33). -/
def Lookaside.hit (l : Lookaside) (a : LocalAddr) : Option (Fin 4 × Copy) :=
  match l.order.find? (l.covers a) with
  | none => none
  | some i => (l.entries.get i).map fun c => (i, c)

/-- Where a copy of window w is placed: on the entry that holds w, else on the lowest-numbered invalid entry, else on
the least recently used one (R35). -/
def Lookaside.placeFor (l : Lookaside) (w : WindowId) : Fin 4 :=
  match entryNumbers.find? (l.holds w) with
  | some i => i
  | none =>
    match entryNumbers.find? (fun i => (l.entries.get i).isNone) with
    | some i => i
    | none => l.order.getLastD 0

/-- A copy is installed and becomes the most recently used (R35). -/
def Lookaside.install (l : Lookaside) (c : Copy) : Lookaside :=
  let i := l.placeFor c.window
  ({ l with entries := vput l.entries i (some c) } : Lookaside).touch i

/-- The entry that holds window w, if one does, is made invalid and leaves the order of recent use (R36). -/
def Lookaside.invalidate (l : Lookaside) (w : WindowId) : Lookaside :=
  { entries := vmap (fun e => e.filter fun c => c.window != w) l.entries
    order := l.order.filter fun i => !l.holds w i }

/-! ### Entry into OFFLINE (R170, R171) -/

/-- The quiesce condition of a QUIESCING port: its current access is IDLE and its occupancy copy is 0 (R170). -/
def PortUnit.quiesced (u : PortUnit) : Bool :=
  u.state == .quiescing && u.current == .idle && u.occupancyCopy == 0

/-- DONE is posted to the offline requester's slot, with the number it gave, and the requester made absent (R171). -/
def State.postOffline (s : State) (p : PortId) : State :=
  let requester := (s.port p).offlineRequester
  let t := s.modifyPort p fun u => { u with offlineRequester := none }
  match requester with
  | none => t
  | some (q, number) => t.postResult q number (plainResult .done none)

/-- The port enters OFFLINE: its entries are made invalid, its offline notice sent, its slot cleared, and DONE posted to
its offline requester, in this order (R171). -/
def State.enterOffline (s : State) (p : PortId) : State :=
  let t := s.modifyPort p fun u => { u with state := .offline, lookaside := emptyLookaside }
  ((t.sendToTable p .offlineNotice).clearSlot p).postOffline p

/-- Port p's quiesce condition is evaluated, and the port enters OFFLINE if it is met (R170, R171). -/
def State.evaluateQuiesce (s : State) (p : PortId) : State :=
  if (s.port p).quiesced then s.enterOffline p else s

/-! ### The ending of a current access -/

/-- The port unit answers its current access, which returns to IDLE, offers the fault there is, and evaluates the
quiesce condition (R26, R31, R112, R170). -/
def State.endCurrent (s : State) (p : PortId) (a : Answer) (f : Option FaultInfo) : State :=
  let t := (s.answer p a).setCurrent p .idle
  let t := match f with
    | none => t
    | some f => t.offerFault p f
  t.evaluateQuiesce p

/-- A match fault: the access is answered ERROR and the fault offered to the port fault record (R31). -/
def State.failMatch (s : State) (p : PortId) (h : AccessHead) (kind : FaultKind) (w : Option WindowId) : State :=
  s.endCurrent p .error (some (matchFault h kind w))

/-! ### Walks (2.5) -/

/-- The access goes to WALKING. Its walk is sent, or waits unsent while the stale-walk flag is set (R37). -/
def State.startWalk (s : State) (p : PortId) (a : Access) : State :=
  if (s.port p).staleWalk then s.setCurrent p (.walking a false)
  else (s.setCurrent p (.walking a true)).sendToTable p (.walk a.toAccessHead)

/-- An answer taken while the stale-walk flag is set is discarded: the flag clears, and a walk waiting unsent is sent
(R45). What the port sends for a discarded ADMIT is in `admitAnswer`'s meaning. -/
def State.discardAnswer (s : State) (p : PortId) : State :=
  let t := s.setStaleWalk p false
  match (s.port p).current with
  | .walking a false => (t.setCurrent p (.walking a true)).sendToTable p (.walk a.toAccessHead)
  | _ => t

/-- The admission of an access under a copy (R34, R38); it is a posted write when it is a WRITE through a copy whose
posting is POSTED (R120). -/
def Copy.admission (c : Copy) (h : AccessHead) : Admission where
  window := c.window
  epoch := c.epoch
  sysAddr := c.terms.translate h.addr
  width := c.terms.width
  linkable := c.terms.linkable
  posted := h.kind == .write && c.terms.posting == .posted

/-- The reservation monitor drops the port's reservation when a LINKED_READ of it is admitted (R136), through a stale copy
too (R137; DEDUCED in the light of R85's last words, notes/assumptions/26.md). -/
def State.dropForLinkedRead (s : State) (p : PortId) (h : AccessHead) : State :=
  if h.kind == .linkedRead then s.setReservation p none else s

/-- The park timer is loaded with the park limit as it stands (R41). -/
def State.park (s : State) (p : PortId) (a : Access) (w : WindowId) : State :=
  s.setCurrent p (.parked a w { limit := s.config.parkLimit, ticks := 0 })

end Sys2Proof.Machine
end

