-- ==== Sys2Proof/Machine/Bus.lean ====
section
/-! DEFINITION. What the engine's events share: candidates and the downstream arbiter (5.2, 5.3), the grant (5.4), parts
(5.5, 5.6), the finish of an access (5.7) and of a store entry (6.2 to 6.5). -/

namespace Sys2Proof.Machine

/-! ### Candidates (5.2) -/

/-- What a port offers the engine (R95). -/
inductive Candidate where
  /-- Its oldest store entry. -/
  | entry (e : StoreEntry)
  /-- Its current access, WAITING and offered. -/
  | access (a : Access) (adm : Admission)
  /-- Its current access, ON_BUS and held as the bus access record, which ended a part RTY. -/
  | resumed
deriving DecidableEq, Repr

/-- The bus access record was formed from port p's current access and is not abandoned (R94, R95). -/
def BusAccess.isCurrentOf (r : BusAccess) (p : PortId) : Bool :=
  r.origin == p && !r.fromStore && !r.abandoned

/-- The candidate of port p (R95). A posted write in WAITING is none. -/
def State.candidate (s : State) (p : PortId) : Option Candidate :=
  match s.oldestEntry p with
  | some e => some (.entry e)
  | none =>
    match (s.port p).current with
    | .waiting a adm true => if adm.posted then none else some (.access a adm)
    | .onBus _ _ =>
      match s.engine.access with
      | some r => if r.isCurrentOf p then some .resumed else none
      | none => none
    | _ => none

/-- While a bus access record is present, no other port is granted (R98). -/
def Engine.admitsPort (e : Engine) (p : PortId) : Bool :=
  match e.access with
  | none => true
  | some r => r.origin == p

/-- Port p has an eligible candidate (R96, R98). -/
def State.eligible (s : State) (p : PortId) : Bool :=
  (s.candidate p).isSome && !s.engine.retryWaiters.contains p && s.engine.admitsPort p

/-- The rank of port p (R100). -/
def State.rank (s : State) (p : PortId) : Nat := s.config.ranks.get p

/-- No eligible port has a higher rank than p (R99). -/
def State.highest (s : State) (p : PortId) : Bool :=
  allPorts.all fun q => !s.eligible q || s.rank q ≤ s.rank p

/-- The port that a choice grants: of the eligible ports of the highest rank, the first in the rotation order (R99). -/
def State.chosenPort (s : State) : Option PortId :=
  s.engine.rotation.find? fun p => s.eligible p && s.highest p

/-! ### Parts (5.5, 5.6) -/

/-- The engine presents the next part, under the next number, and starts the response timer with the response limit as it
stands (R106). -/
def State.presentPart (s : State) : State :=
  s.modifyEngine fun e =>
    { e with
      part := e.access.map BusAccess.nextPart
      presented := e.presented + 1
      timer := some { limit := s.config.responseLimit, ticks := 0 } }

/-- A part is started for the first time: its retry count is 0 and it takes the retry limit as it stands (R106). -/
def State.startPart (s : State) : State :=
  (s.modifyEngine fun e =>
    { e with access := e.access.map fun r => { r with retryCount := 0, retryLimit := s.config.retryLimit } }).presentPart

/-- The part has ended: it is no longer presented, and the response timer stops (R106). -/
def Engine.endPart (e : Engine) : Engine := { e with part := none, timer := none }

/-- The bus access record is removed and the bus holder becomes NONE (R111, R112). -/
def Engine.dropAccess (e : Engine) : Engine := { e with access := none, holder := .free }

/-! ### The grant (5.4) -/

/-- The record formed from a current access at its first grant (R101). -/
def accessRecord (p : PortId) (a : Access) (adm : Admission) : BusAccess where
  origin := p
  fromStore := false
  kind := a.kind
  size := a.size
  sysAddr := adm.sysAddr
  data := if a.kind.isWrite then lanesOfWord a.data (laneOf adm.sysAddr) a.size.bytes else noLanes
  width := adm.width
  window := adm.window
  epoch := adm.epoch
  partsTotal := partsTotal a.size adm.width
  partsDone := 0
  retryCount := 0
  retryLimit := 0
  assembled := noLanes
  abandoned := false

/-- The record formed from a store entry at its first grant (R101, R126). -/
def entryRecord (e : StoreEntry) : BusAccess where
  origin := e.port
  fromStore := true
  kind := .write
  size := e.size
  sysAddr := e.sysAddr
  data := e.data
  width := e.width
  window := e.window
  epoch := e.epoch
  partsTotal := partsTotal e.size e.width
  partsDone := e.partsDone
  retryCount := 0
  retryLimit := 0
  assembled := noLanes
  abandoned := false

/-- Who holds the bus when a record's access is granted (R101). -/
def BusAccess.holder (r : BusAccess) : BusHolder :=
  if r.fromStore then .storeEntry r.origin else .portAccess r.origin

/-- Port p is granted with the record `r`: the port moves to the end of the rotation order and its access becomes the
bus holder (R99, R101). -/
def State.seizeBus (s : State) (p : PortId) (r : BusAccess) : State :=
  s.modifyEngine fun e =>
    { e with rotation := moveToEnd p e.rotation, holder := r.holder, access := some r }

/-- The port holds a reservation on the granule of a system address (R139). -/
def State.reservedOn (s : State) (p : PortId) (a : SysAddr) : Bool :=
  match s.reservation p with
  | none => false
  | some r => r.granule == granuleOf a

/-- The finish of a non-posted access at its port and in the engine: the port answers and returns to IDLE, the engine
sends the subtraction, and the record is removed (R112). The arbiter's choice follows. -/
def State.finishAccess (s : State) (r : BusAccess) (a : Answer) (f : Option FaultInfo) : State :=
  ((s.endCurrent r.origin a f).engineSubtract r.window r.epoch).modifyEngine Engine.dropAccess

/-- What a grant comes to: the access has the bus, or it was a CONDITIONAL_WRITE without a reservation, which has
finished without a cycle, so that the arbiter makes a choice again (R113). -/
inductive GrantResult where
  | started (s : State)
  | linkFailed (s : State)
deriving Repr

/-- The granted access starts its part; a CONDITIONAL_WRITE is examined first (R101, R113, R139). `start` starts the
part, for the first time or again. -/
def State.examine (s : State) (r : BusAccess) (start : State → State) : GrantResult :=
  if r.kind == .conditionalWrite then
    if s.reservedOn r.origin r.sysAddr then .started (start (s.setReservation r.origin none))
    else .linkFailed (s.finishAccess r .linkFailed none)
  else .started (start s)

/-- Port p is granted (R101): a record already present is kept and its part started again; a first grant forms the
record from the port's candidate, a current access moving from WAITING to ON_BUS. -/
def State.grant (s : State) (p : PortId) : GrantResult :=
  match s.engine.access with
  | some r => (s.seizeBus p r).examine r State.presentPart
  | none =>
    match s.candidate p with
    | some (.entry e) => (s.seizeBus p (entryRecord e)).examine (entryRecord e) State.startPart
    | some (.access a adm) =>
      ((s.seizeBus p (accessRecord p a adm)).setCurrent p (.onBus a adm)).examine (accessRecord p a adm) State.startPart
    | _ => .started s

/-- The external master is granted: the grant line is asserted (R116). -/
def State.grantExternal (s : State) : State :=
  s.modifyEngine fun e => { e with holder := .external, extGrant := true }

/-- Choices of the arbiter until one grants the bus or finds nothing to grant (R98, R99, R113). Each LINK_FAILED ends
one port's current access, so at most six come before. -/
def State.arbitrate : Nat → State → State
  | 0, s => s
  | n + 1, s =>
    if s.engine.extRequest then s.grantExternal
    else
      match s.chosenPort with
      | none => s
      | some p =>
        match s.grant p with
        | .started t => t
        | .linkFailed t => State.arbitrate n t

/-- The arbiter makes a choice if the bus is free (R98). -/
def State.choose (s : State) : State :=
  if s.engine.holder == .free then State.arbitrate 7 s else s

/-! ### The posted-write store (6.2) -/

/-- A posted write of port p fits under both bounds of the store (R121). -/
def State.fits (s : State) (p : PortId) : Bool :=
  s.engine.store.length < Config.storeCapacity && s.occupancy p < Config.portQuota

/-- The entry of a posted write (R119, R120). -/
def storeEntryOf (p : PortId) (epoch : PortEpoch) (a : Access) (adm : Admission) : StoreEntry where
  port := p
  portEpoch := epoch
  window := adm.window
  epoch := adm.epoch
  sysAddr := adm.sysAddr
  size := a.size
  data := lanesOfWord a.data (laneOf adm.sysAddr) a.size.bytes
  width := adm.width
  cls := a.cls
  level := a.level
  partsDone := 0

/-- The engine accepts the posted write of port p: the entry joins the end of the store, the port's occupancy copy
rises, the initiator is answered DONE and the current access is IDLE (R121, R127). -/
def State.accept (s : State) (p : PortId) (a : Access) (adm : Admission) : State :=
  let e := storeEntryOf p (s.port p).epoch a adm
  let t := s.modifyEngine fun g => { g with store := g.store ++ [e] }
  let t := t.modifyPort p fun u => { u with occupancyCopy := u.occupancyCopy + 1 }
  t.endCurrent p (.done none) none

/-- The posted write of port p that waits for room in the store (R122). -/
def State.waitingWrite (s : State) (p : PortId) : Option (Access × Admission) :=
  match (s.port p).current with
  | .waiting a adm true => if adm.posted then some (a, adm) else none
  | _ => none

/-- A port of the waiting list whose write now fits (R123). -/
def State.waiterFits (s : State) (p : PortId) : Bool :=
  s.fits p && (s.waitingWrite p).isSome

/-- At an entry's finish the first waiting write that fits is accepted and leaves the waiting list (R123). -/
def State.admitWaiter (s : State) : State :=
  match s.engine.waitingList.find? s.waiterFits with
  | none => s
  | some p =>
    match s.waitingWrite p with
    | none => s
    | some (a, adm) =>
      (s.modifyEngine fun g => { g with waitingList := removePort p g.waitingList }).accept p a adm

/-- An admitted access is offered, in the event in which it becomes ready (R34, R38, R120): a posted write to the store,
where it is accepted or joins the waiting list (R121, R122), any other to the arbiter. A candidate that so becomes
eligible at a free bus is granted (R98). -/
def State.offer (s : State) (p : PortId) (a : Access) (adm : Admission) : State :=
  if adm.posted then
    if s.fits p then (s.accept p a adm).choose
    else (s.setCurrent p (.waiting a adm true)).modifyEngine fun g => { g with waitingList := g.waitingList ++ [p] }
  else (s.setCurrent p (.waiting a adm true)).choose

/-! ### Finishing on the bus (5.7, 6.4, 6.5) -/

/-- A store entry finishes (R127): it leaves the store, the record is removed and the arbiter makes a choice; then the
subtraction and the entry-finished report are sent and the waiting list is examined. An entry so accepted is a candidate
that becomes eligible, granted if the bus is still free (R98). -/
def State.finishEntry (s : State) (r : BusAccess) : State :=
  let t := s.modifyEngine fun g => ({ g with store := removeOldest r.origin g.store } : Engine).dropAccess
  let t := t.choose.engineSubtract r.window r.epoch
  let t := { t with links := { t.links with reports := vput t.links.reports r.origin (t.links.reports.get r.origin + 1) } }
  t.admitWaiter.choose

/-- The end of an access abandoned on the bus: the subtraction is sent, the record removed, and the arbiter makes a
choice; no fault is offered and no answer given (R114). -/
def State.endAbandoned (s : State) (r : BusAccess) : State :=
  ((s.engineSubtract r.window r.epoch).modifyEngine Engine.dropAccess).choose

/-- The failure of the access on the bus, its part having ended (R111). A non-posted access is answered ERROR with its
bus fault (R112); a store entry's deferred fault is routed and the entry finishes (R128, R129). -/
def State.failAccess (s : State) (r : BusAccess) (kind : FaultKind) : State :=
  if r.fromStore then
    match s.oldestEntry r.origin with
    | none => s.finishEntry r
    | some e => (s.routeDeferred e (deferredFault kind r e)).finishEntry r
  else
    match (s.port r.origin).current with
    | .onBus a _ => (s.finishAccess r .error (some (busFault kind r a.toAccessHead))).choose
    | _ => (s.finishAccess r .error none).choose

/-- The success of the access on the bus, its last part having ended ACK (R112, R113, R127). A linked read is reported
to the reservation monitor before it finishes; a read's DONE carries the assembled data. -/
def State.completeAccess (s : State) (r : BusAccess) : State :=
  if r.fromStore then s.finishEntry r
  else if r.kind.isWrite then (s.finishAccess r (.done none) none).choose
  else
    let t := if r.kind == .linkedRead then s.reportLinkedRead r.origin r.sysAddr r.window r.epoch else s
    (t.finishAccess r (.done (some r.assembled)) none).choose

/-- A write part that ended ACK is reported to the reservation monitor with its system address (R117, R141). -/
def State.reportPart (s : State) (part : BusPart) : State :=
  if part.isWrite then s.breakGranule part.addr else s

/-- The record after one of its parts ended ACK: parts completed rises, and a read part's bytes are placed (R104,
R107). -/
def BusAccess.advance (r : BusAccess) (part : BusPart) (lanes : Word) : BusAccess :=
  { r with
    partsDone := r.partsDone + 1
    assembled :=
      if part.isWrite then r.assembled
      else placeLanes r.assembled (lanesOfWord lanes (laneOf part.addr) part.size.bytes) }

/-- The part that is presented, with the bus access record it belongs to. -/
def State.partInProgress (s : State) : Option (BusAccess × BusPart) :=
  match s.engine.access, s.engine.part with
  | some r, some part => some (r, part)
  | _, _ => none

/-- The part in progress, where a termination with this number is its own. A termination of a part that has ended is not
taken, whether or not a later part is presented (R106). -/
def State.terminated (s : State) (number : Nat) : Option (BusAccess × BusPart) :=
  if number = s.engine.presented then s.partInProgress else none

/-- The part in progress, where its response timer has expired: a part started in the same event has a fresh timer (R106,
R110, R115). -/
def State.timedOut (s : State) : Option (BusAccess × BusPart) :=
  if s.engine.timer.any Timer.expired then s.partInProgress else none

/-- An ended part's record, kept in the engine and, for a store entry, its parts completed in the entry (R101, R107). -/
def State.keepAccess (s : State) (r : BusAccess) : State :=
  s.modifyEngine fun g =>
    { g with
      access := some r
      store :=
        if r.fromStore then modifyOldest r.origin (fun e => { e with partsDone := r.partsDone }) g.store
        else g.store }

end Sys2Proof.Machine
end

