-- ==== Sys2Proof/Machine/Arrivals.lean ====
section
/-! DEFINITION. What an initiator presents on its local bus: ACCESS_ARRIVAL (2.2 to 2.5), the slot words with
REGISTER_WRITE and ACKNOWLEDGE (10.1), and RESULT_TAKEN (R180). -/

namespace Sys2Proof.Machine

/-! ### The slot's words (R178 to R181) -/

/-- The slot examines a request in the capture event: the kind code names a request, and the target of a port request is
0 to 5 (R179). The code is the slot's own refusal. -/
def Captured.slotRefusal (c : Captured) : Option ResultCode :=
  match c.kind with
  | none => some .invalid
  | some k => if k.destination == .port && 6 ≤ c.target then some .noSuch else none

/-- The request that a slot captures: its number is one above the last (R179). -/
def Slot.capturedRequest (sl : Slot) : Captured where
  number := sl.number + 1
  request := sl.request
  params := sl.params

/-- The slot after a capture: PENDING with the new number, overrun clear, RESULT and Q0 to Q4 zero (R179). -/
def Slot.capturing (sl : Slot) : Slot :=
  { sl with
    state := .pending
    overrun := false
    number := sl.number + 1
    result := 0
    resultWords := vfill 5 0 }

/-- A captured request that passes the slot's examination is sent, or held at the slot while the stale-request flag is
set (R175, R179). A request of the port that is still untaken with that flag clear, and one still held unsent with it set,
are replaced by it; only the number wrap of R181's note can leave either (DESIGN CHOICE, notes/assumptions/28.md). -/
def State.sendRequest (s : State) (p : PortId) (c : Captured) : State :=
  if (s.port p).staleRequest then s.modifySlot p fun sl => { sl with held := some c }
  else s.setRequest p (some c)

/-- A WRITE to ISSUE (R179). -/
def State.issue (s : State) (p : PortId) : State :=
  let sl := (s.port p).slot
  if sl.state == .idle then
    let c := sl.capturedRequest
    let t := s.modifySlot p Slot.capturing
    match c.slotRefusal with
    | some code => t.postResult p c.number (plainResult code none)
    | none => t.sendRequest p c
  else s.modifySlot p fun sl => { sl with overrun := true }

/-- A WRITE to ACKNOWLEDGE: COMPLETE goes to IDLE and DONE is released; otherwise it is ignored (R180). -/
def Slot.acknowledged (sl : Slot) : Slot :=
  if sl.state == .complete then { sl with state := .idle, doneLine := false } else sl

/-- A WRITE to a slot word without behaviour of its own: a staging word stores the value, on the others it has no effect
(R178). -/
def Slot.writePlain (sl : Slot) (w : PlainWord) (v : Word) : Slot :=
  match w with
  | .request => { sl with request := v }
  | .param i => { sl with params := vput sl.params i v }
  | .identity => sl
  | .status => sl
  | .result => sl
  | .resultWord _ => sl

/-- What a READ of a slot word without behaviour of its own returns (R178). -/
def State.readPlain (s : State) (p : PortId) (w : PlainWord) : Word :=
  let u := s.port p
  match w with
  | .request => u.slot.request
  | .param i => u.slot.params.get i
  | .identity => identityWord p u.role
  | .status => u.slot.statusWord
  | .result => u.slot.result
  | .resultWord i => u.slot.resultWords.get i

/-- The slot words, by their offsets (R178). -/
inductive SlotWord where
  | plain (w : PlainWord)
  | issue
  | acknowledge
deriving DecidableEq, Repr

/-- The words of the slot without behaviour of their own, in the order of their offsets (R178). -/
def plainWords : List PlainWord :=
  [.request, .param 0, .param 1, .param 2, .param 3, .param 4, .param 5, .identity, .status, .result,
   .resultWord 0, .resultWord 1, .resultWord 2, .resultWord 3, .resultWord 4]

/-- The offsets of ISSUE and ACKNOWLEDGE (R178). -/
def issueOffset : Nat := 0x020
def acknowledgeOffset : Nat := 0x040

/-- The word at an aperture offset; none from 044h on (R178). -/
def slotWordAt (offset : Nat) : Option SlotWord :=
  if offset = issueOffset then some .issue
  else if offset = acknowledgeOffset then some .acknowledge
  else (plainWords.find? fun w => w.offset == offset).map .plain

/-- The slot's effect of a WRITE to one of its words, the answer apart (R178 to R180). -/
def State.writeSlot (s : State) (p : PortId) (w : SlotWord) (v : Word) : State :=
  match w with
  | .plain w => s.modifySlot p fun sl => sl.writePlain w v
  | .issue => s.issue p
  | .acknowledge => s.modifySlot p Slot.acknowledged

/-- What a READ of a slot word returns; ISSUE and ACKNOWLEDGE read 0 (R178). -/
def State.readSlot (s : State) (p : PortId) (w : SlotWord) : Word :=
  match w with
  | .plain w => s.readPlain p w
  | .issue => 0
  | .acknowledge => 0

/-- An aperture READ or WRITE is answered by the command slot in the event of its arrival (R30, R178): DONE, or ERROR
unrecorded at an offset without a word. -/
def State.accessSlot (s : State) (p : PortId) (a : Access) : State :=
  match slotWordAt (apertureOffset a.addr) with
  | none => s.answer p .error
  | some w =>
    if a.kind == .write then (s.writeSlot p w a.data).answer p (.done none)
    else s.answer p (.done (some (lanesOfWord (s.readSlot p w) 0 4)))

/-! ### Arrival (2.2 to 2.5) -/

/-- A hit: the entry is made the most recently used, and the access checked against the copy, failing as a match fault or
being admitted, with an addition sent (R33, R34). A hit changes no reservation, on a stale copy or another (R85); the
admission of a LINKED_READ drops its port's, whether or not the copy is stale (R136, R137; DEDUCED,
notes/assumptions/26.md). -/
def State.hitEntry (s : State) (p : PortId) (a : Access) (i : Fin 4) (c : Copy) : State :=
  let t := s.setLookaside p ((s.port p).lookaside.touch i)
  match checkFault c.terms c.right a.toAccessHead with
  | some kind => t.failMatch p a.toAccessHead kind (some c.window)
  | none =>
    ((t.setCurrent p (.waiting a (c.admission a.toAccessHead) false)).dropForLinkedRead p a.toAccessHead).sendToTable p
      (.addition c.window c.epoch)

/-- An access that passed the alignment and aperture checks is looked up in the lookaside (R33, R37). -/
def State.lookUp (s : State) (p : PortId) (a : Access) : State :=
  match (s.port p).lookaside.hit a.addr with
  | some (i, c) => s.hitEntry p a i c
  | none => s.startWalk p a

/-- The checks of an access that arrives at an ACTIVE port (R29, R30). -/
def State.checkArrival (s : State) (p : PortId) (a : Access) : State :=
  if !a.toAccessHead.aligned then s.failMatch p a.toAccessHead .align none
  else if inAperture a.addr then
    if a.kind.isLinked then s.answer p .error else s.accessSlot p a
  else s.lookUp p a

/-- An access that the port takes: while the reset input is asserted it is answered ERROR (R173), and otherwise the port
state decides (R28). -/
def State.arrive (s : State) (p : PortId) (a : Access) : State :=
  if (s.port p).resetInput then s.answer p .error
  else
    match (s.port p).state with
    | .offline => s.answer p .error
    | .fenced => if a.toAccessHead.isApertureWord then s.accessSlot p a else s.answer p .error
    | .quiescing => if a.toAccessHead.isApertureWord then s.accessSlot p a else s.answer p .error
    | .active => s.checkArrival p a

/-- A local bus carries at most one access that has not been answered: an access is taken only in stage IDLE, and until
then the event does not occur (R27). From the arrival the port has given no answer. -/
def State.presentAccess (s : State) (p : PortId) (a : Access) : State :=
  if (s.port p).current == .idle then (s.modifyPort p fun u => { u with answer := none }).arrive p a else s

/-- The WRITE of size 4 to an aperture offset that REGISTER_WRITE and ACKNOWLEDGE stand for. Its class and level are not
examined (R30). -/
def apertureWrite (offset : Nat) (v : Word) : Access where
  kind := .write
  size := .four
  addr := BitVec.ofNat 32 (Config.apertureBase + offset)
  cls := .data
  level := .user
  data := v

/-- ACCESS_ARRIVAL (R28). -/
def execAccessArrival (p : PortId) (a : Access) (s : State) : Host.Outcome State Fault Refusal :=
  .next (s.presentAccess p a)

/-- REGISTER_WRITE (R178): the arrival of a WRITE to a slot word without behaviour of its own. -/
def execRegisterWrite (p : PortId) (word : PlainWord) (value : Word) (s : State) : Host.Outcome State Fault Refusal :=
  .next (s.presentAccess p (apertureWrite word.offset value))

/-- ACKNOWLEDGE (R180): the arrival of a WRITE to ACKNOWLEDGE, of a value that is not examined. -/
def execAcknowledge (p : PortId) (s : State) : Host.Outcome State Fault Refusal :=
  .next (s.presentAccess p (apertureWrite acknowledgeOffset 0))

/-- RESULT_TAKEN (R180). -/
def execResultTaken (p : PortId) (number : RequestNumber) (result : Result) (s : State) :
    Host.Outcome State Fault Refusal :=
  .next (s.postResult p number result)

end Sys2Proof.Machine
end

