-- ==== Sys2Proof/Machine/BusEvents.lean ====
section
/-! DEFINITION. The events of the system bus: the endings of a part (R106 to R110), the return of a retrying port (R96),
the external master (5.9), and the entry-finished report (R127). An ending of a part that has ended is not taken (R106). -/

namespace Sys2Proof.Machine

/-- A part ended ACK and the access goes on: the next part starts in the same event, or the access finishes (R105,
R107). -/
def State.partCompleted (s : State) (r : BusAccess) : State :=
  if r.partsDone < r.partsTotal then (s.keepAccess r).startPart else (s.keepAccess r).completeAccess r

/-- PART_ACK (R107, R114, R117). -/
def execPartAck (lanes : Word) (s : State) (number : Nat := 0) : Host.Outcome State Fault Refusal :=
  .next
    (match s.terminated number with
      | none => s
      | some (r, part) =>
        let t := (s.modifyEngine Engine.endPart).reportPart part
        if r.abandoned then t.endAbandoned r else t.partCompleted (r.advance part lanes))

/-- PART_ERR (R108, R114). -/
def execPartErr (s : State) (number : Nat := 0) : Host.Outcome State Fault Refusal :=
  .next
    (match s.terminated number with
      | none => s
      | some (r, _) =>
        let t := s.modifyEngine Engine.endPart
        if r.abandoned then t.endAbandoned r else t.failAccess r .targetError)

/-- The bus is released for a retry: the record is kept, the port enters the retry waiters and the arbiter makes a
choice (R109). -/
def State.releaseForRetry (s : State) (r : BusAccess) : State :=
  (s.modifyEngine fun e =>
    { e with
      holder := .free
      access := some r
      retryWaiters := removePort r.origin e.retryWaiters ++ [r.origin]
      retryTick := false }).choose

/-- The part ended RTY: its retry count rises, and the part is retried or the access fails (R109). -/
def State.retryPart (s : State) (r : BusAccess) : State :=
  let r := { r with retryCount := r.retryCount + 1 }
  if r.retryCount ≤ r.retryLimit then s.releaseForRetry r else s.failAccess r .retryExhausted

/-- PART_RTY (R109, R114). -/
def execPartRty (s : State) (number : Nat := 0) : Host.Outcome State Fault Refusal :=
  .next
    (match s.terminated number with
      | none => s
      | some (r, _) =>
        let t := s.modifyEngine Engine.endPart
        if r.abandoned then t.endAbandoned r else t.retryPart r)

/-- RESPONSE_TIMER_EXPIRY (R110, R114). -/
def execResponseTimerExpiry (s : State) : Host.Outcome State Fault Refusal :=
  .next
    (match s.timedOut with
      | none => s
      | some (r, _) =>
        let t := s.modifyEngine Engine.endPart
        if r.abandoned then t.endAbandoned r else t.failAccess r .targetTimeout)

/-- The retry waiters are empty. -/
def Engine.releaseWaiters (e : Engine) : Engine := { e with retryWaiters := [], retryTick := false }

/-- RETRY_WAIT_EXPIRY (R96, R98, R115): every port in the retry waiters leaves it, at the first tick since it entered. -/
def execRetryWaitExpiry (s : State) : Host.Outcome State Fault Refusal :=
  .next (if s.engine.retryTick then (s.modifyEngine Engine.releaseWaiters).choose else s)

/-- EXTERNAL_REQUEST (R97, R98). -/
def execExternalRequest (s : State) : Host.Outcome State Fault Refusal :=
  .next
    (if s.engine.extRequest then s
      else (s.modifyEngine fun e => { e with extRequest := true }).choose)

/-- The master withdraws while granted: the grant is deasserted and the bus holder becomes NONE (R116). -/
def Engine.withdrawExternal (e : Engine) : Engine :=
  if e.holder == .external then { e with extRequest := false, extGrant := false, holder := .free }
  else { e with extRequest := false }

/-- EXTERNAL_WITHDRAW (R97, R116): a choice follows only where the master was granted. -/
def execExternalWithdraw (s : State) : Host.Outcome State Fault Refusal :=
  .next
    (if s.engine.holder == .external then (s.modifyEngine Engine.withdrawExternal).choose
      else s.modifyEngine Engine.withdrawExternal)

/-- EXTERNAL_WRITE_ACK (R117): the bus monitor watches the master's cycles while the master holds the grant. A cycle lies
within one granule, so its size does not matter. -/
def execExternalWriteAck (addr : SysAddr) (_size : AccessSize) (s : State) : Host.Outcome State Fault Refusal :=
  .next (if s.engine.holder == .external then s.breakGranule addr else s)

/-- ENTRY_FINISHED_REPORT (R127, R170). -/
def execEntryFinishedReport (p : PortId) (s : State) : Host.Outcome State Fault Refusal :=
  .next
    (if s.links.reports.get p = 0 then s
      else
        let t := { s with links := { s.links with reports := vput s.links.reports p (s.links.reports.get p - 1) } }
        (t.modifyPort p fun u => { u with occupancyCopy := u.occupancyCopy - 1 }).evaluateQuiesce p)

end Sys2Proof.Machine
end

