-- ==== Sys2Proof/Machine/WindowTable.lean ====
section
/-! DEFINITION. What the window table controller's events share: matching and walk answers (1.6, 1.7), the overlap check
(R18), the request arbiter (1.8), the examination of a request (3.1), filling the outstanding set (R15), and the
evaluation of a pending operation (R14, 4.6). -/

namespace Sys2Proof.Machine

/-- The windows, W0 to W63. -/
def allWindows : List WindowId := List.finRange 64

/-! ### Matching (1.6) and the answer to a walk (1.7) -/

/-- The window matches accesses: it is LIVE or HELD (R4, R17). -/
def WindowBody.matching (b : WindowBody) : Bool := b.phase == .live || b.phase == .held

/-- An access from port p at address a matches the window (R17). -/
def WindowRecord.matchesAccess (r : WindowRecord) (p : PortId) (a : LocalAddr) : Bool :=
  match r.body with
  | none => false
  | some b => b.matching && b.rights.get p != .noRight && b.terms.contains a

/-- The window that an access from port p at address a matches (R17); by the law of R18 there is at most one. -/
def Table.matchFor (t : Table) (p : PortId) (a : LocalAddr) : Option WindowId :=
  allWindows.find? fun w => (t.records.get w).matchesAccess p a

/-- The copy of a window's record that the table answers to port p (R20). -/
def WindowBody.copyFor (b : WindowBody) (w : WindowId) (g : Generation) (p : PortId) : Copy where
  window := w
  generation := g
  terms := b.terms
  right := b.rights.get p
  epoch := b.epoch

/-- The table answers a walk from its records as they stand (R20). -/
def Table.answerWalk (t : Table) (p : PortId) (h : AccessHead) : TableMessage :=
  match t.matchFor p h.addr with
  | none => .noWindow
  | some w =>
    match (t.records.get w).body with
    | none => .noWindow
    | some b =>
      if b.phase == .held then .park w
      else
        let copy := b.copyFor w (t.records.get w).generation p
        match checkFault b.terms (b.rights.get p) h with
        | some kind => .denied copy kind
        | none => .admitted copy

/-- The count of window w for an epoch changed by `f`; a FREE record has none (R10, R11). -/
def State.modifyCount (s : State) (w : WindowId) (e : Epoch) (f : Nat → Nat) : State :=
  s.setBody w ((s.record w).body.map fun b => b.modifyCount e f)

/-! ### The overlap check (R18) -/

/-- Some port holds a right other than NONE in both lists (R18). -/
def Rights.share (r q : Rights) : Bool :=
  allPorts.any fun p => r.get p != .noRight && q.get p != .noRight

/-- A window with these fields and rights conflicts with the record (R18). -/
def WindowRecord.conflicts (r : WindowRecord) (t : Terms) (rights : Rights) : Bool :=
  match r.body with
  | none => false
  | some b => b.matching && t.meets b.terms && Rights.share rights b.rights

/-- The overlap check of window w with these fields and rights passes (R18). -/
def Table.overlapPasses (t : Table) (w : WindowId) (terms : Terms) (rights : Rights) : Bool :=
  allWindows.all fun v => v == w || !(t.records.get v).conflicts terms rights

/-! ### Pending operations (R14, 4.6) -/

/-- Both in-flight counts are zero and the outstanding set is empty (R88, R89). -/
def WindowBody.settled (b : WindowBody) : Bool :=
  b.shootSet == [] && b.counts.get 0 == 0 && b.counts.get 1 == 0

/-- The condition of a pending REVISE (R90). -/
def WindowBody.revised (b : WindowBody) (narrowing : Bool) : Bool :=
  b.shootSet == [] && (!narrowing || b.counts.get (otherEpoch b.epoch) == 0)

/-- The table evaluates the condition of window w's pending operation, and acts when it is met (R14): a HOLD is marked
settled (R61), a RETIRE makes the window FREE (R5, R68), a REVISE is removed (R73), each posting DONE with the window's
generation. -/
def State.evaluate (s : State) (w : WindowId) : State :=
  match (s.record w).body with
  | none => s
  | some b =>
    let done := plainResult .done (some (s.record w).generation)
    match b.pendingOp with
    | none => s
    | some (.hold _ _ true) => s
    | some (.hold q n false) =>
      if b.settled then (s.setBody w (some { b with pendingOp := some (.hold q n true) })).postResult q n done else s
    | some (.retire q n) =>
      if b.settled then (s.setBody w none).postResult q n done else s
    | some (.revise q n narrowing) =>
      if b.revised narrowing then (s.setBody w (some { b with pendingOp := none })).postResult q n done else s

/-! ### The request arbiter (1.8) -/

/-- The port whose walk the arbiter takes next, with its walk (R22). -/
def State.chosenWalk (s : State) : Option (PortId × AccessHead) :=
  match s.table.walkOrder.find? fun p => (s.waitingWalk p).isSome with
  | none => none
  | some p => (s.waitingWalk p).map fun h => (p, h)

/-- The request waits at the table's request arbiter (R21, R183). -/
def Captured.forTable (c : Captured) : Bool :=
  match c.kind with
  | none => false
  | some k => k.destination == .table

/-- Port p has a management request waiting at the table's arbiter (R21). -/
def State.tableRequestWaits (s : State) (p : PortId) : Bool :=
  match s.requestOf p with
  | none => false
  | some c => c.forTable

/-- A walk is waiting at the arbiter (R21). -/
def State.walkWaits (s : State) : Bool := allPorts.any fun p => (s.waitingWalk p).isSome

/-- The management request that the arbiter takes next: none while any walk waits, else that of the port that stands
first in the second rotation order (R21, R22). -/
def State.chosenRequest (s : State) : Option (PortId × Captured) :=
  if s.walkWaits then none
  else
    match s.table.requestOrder.find? s.tableRequestWaits with
    | none => none
    | some p => (s.requestOf p).map fun c => (p, c)

/-- The table takes the management request of port p: the arbiter's order turns (R22) and the port unit is told (R186). -/
def State.takeTableRequest (s : State) (p : PortId) : State :=
  ({ s with table := { s.table with requestOrder := moveToEnd p s.table.requestOrder } } : State).requestTaken p

/-- The event in which the table takes a management request of this kind: `act` is what it does with the request of the
port chosen. The event does not occur while the arbiter chooses no request of the kind. -/
def State.onTableRequest (s : State) (kind : RequestKind) (act : PortId → Captured → State → State) : State :=
  match s.chosenRequest with
  | none => s
  | some (p, c) => if c.kind == some kind then act p c (s.takeTableRequest p) else s

/-! ### The examination of a window request (3.1) -/

/-- A LIVE window is blocked when an operation is pending or its outstanding set is not empty (R4, R50). -/
def WindowBody.blocked (b : WindowBody) : Bool := b.pendingOp.isSome || b.shootSet != []

/-- The HOLD of a HELD window is settled (R6). -/
def WindowBody.holdSettled (b : WindowBody) : Bool :=
  match b.pendingOp with
  | some (.hold _ _ true) => true
  | _ => false

/-- Step 4 of the examination: what the record's condition answers to a request of this kind, `none` being acceptance
(R4, R50). -/
def WindowRecord.condition (r : WindowRecord) (kind : RequestKind) : Option ResultCode :=
  match r.body with
  | none => if kind == .define then none else some .state
  | some b =>
    match b.phase, kind with
    | .staged, .amend | .staged, .enable | .staged, .retire => none
    | .staged, _ => some .state
    | .live, .hold | .live, .retire | .live, .setRights => if b.blocked then some .busy else none
    | .live, _ => some .state
    | .held, .release => none
    | .held, .amend | .held, .retire => if b.holdSettled then none else some .busy
    | .held, .hold | .held, .setRights => if b.holdSettled then some .state else some .busy
    | .held, _ => some .state
    | .draining, _ => some .state

/-- The refusal of a window request: nothing in the table changes, and the code is posted with the record's generation
(R51). -/
def State.refuse (s : State) (p : PortId) (c : Captured) (code : ResultCode) (g : Option Generation) : State :=
  s.postResult p c.number (plainResult code g)

/-- Steps 1 to 4 of the examination of a window request from port p (R49); `act` is what follows for a request that
passes them, on the window it names. -/
def State.examineRequest (s : State) (kind : RequestKind) (p : PortId) (c : Captured)
    (act : WindowId → State → State) : State :=
  if h : c.target < 64 then
    let w : WindowId := ⟨c.target, h⟩
    let r := s.record w
    if (s.port p).role != .supervisor then s.refuse p c .denied (some r.generation)
    else if !c.any && c.expected != r.generation then s.refuse p c .stale (some r.generation)
    else
      match r.condition kind with
      | some code => s.refuse p c code (some r.generation)
      | none => act w s
  else s.refuse p c .noSuch none

/-- Window w takes a new body and its generation rises by one (R7, R52). -/
def State.changeWindow (s : State) (w : WindowId) (b : Option WindowBody) : State :=
  s.setRecord w { generation := (s.record w).generation + 1, body := b }

/-- DONE is posted to port p with the generation of window w after the change (R52). -/
def State.postDone (s : State) (w : WindowId) (p : PortId) (c : Captured) : State :=
  s.postResult p c.number (plainResult .done (some (s.record w).generation))

/-- The monitor's part of a request that takes window w out of LIVE or narrows it: its reservations are broken and its
link epoch set (R143). -/
def State.breakAndLink (s : State) (w : WindowId) (e : Option Epoch) : State :=
  (s.breakWindow w).setLinkEpoch w e

/-- A request that starts a long operation changes window w: the outstanding set becomes the ports not OFFLINE in the
table's view, with the generation after the change as its set generation, and each of them is sent a shoot-down (R15,
R53, R78, R80). -/
def State.startOperation (s : State) (w : WindowId) (b : WindowBody) : State :=
  let g := (s.record w).generation + 1
  let set := s.onlinePorts
  let b := { b with shootSet := set, setGeneration := if set = [] then none else some g }
  (s.changeWindow w (some b)).sendToPorts set (.shootDown w g)

end Sys2Proof.Machine
end

