-- ==== Sys2Proof/Machine/Messages.lean ====
section
/-! DEFINITION. The messages between the ports and the table: WALK (R20) and the taking of its answers (R38 to R41, R45),
additions, subtractions, acknowledgements and the offline and online notices (R10, R11, R79, R81, R82), shoot-downs,
release and retire notices and the park timer (R42, R43, R78). A message is taken only when it stands first on its channel
(R76); until then the event that takes it does not occur. -/

namespace Sys2Proof.Machine

/-! ### Walks and their answers -/

/-- The table takes the walk of port p and answers it on its channel; an ADMIT adds one to the count for the record's
current epoch (R20). The arbiter's order turns (R22). -/
def State.takeWalk (s : State) (p : PortId) (h : AccessHead) : State :=
  let t := ({ s with table := { s.table with walkOrder := moveToEnd p s.table.walkOrder } } : State)
  let t := (t.setWaitingWalk p none).settleWalk p
  let m := s.table.answerWalk p h
  let t := match m with
    | .admitted c => t.modifyCount c.window c.epoch (· + 1)
    | _ => t
  t.sendToPort p m

/-- The answer to the walk would be an ADMIT that R12 leaves no room to count (DESIGN CHOICE,
notes/assumptions/27.md). -/
def State.walkHeldBack (s : State) (p : PortId) (h : AccessHead) : Bool :=
  match s.table.answerWalk p h with
  | .admitted c => s.countFull c.window c.epoch
  | _ => false

/-- WALK (R12, R20 to R22). -/
def execWalk (s : State) : Host.Outcome State Fault Refusal :=
  .next
    (match s.chosenWalk with
      | none => s
      | some (p, h) => if s.walkHeldBack p h then s else s.takeWalk p h)

/-- The port takes an ADMIT answer for its walking access (R38). -/
def State.takeAdmitted (s : State) (p : PortId) (c : Copy) : State :=
  if (s.port p).staleWalk then (s.discardAnswer p).sendToTable p (.subtraction c.window c.epoch)
  else
    match (s.port p).current with
    | .walking a true =>
      let t := s.setLookaside p ((s.port p).lookaside.install c)
      let adm := c.admission a.toAccessHead
      ((t.setCurrent p (.waiting a adm false)).dropForLinkedRead p a.toAccessHead).offer p a adm
    | _ => s

/-- ADMIT_ANSWER (R38, R45). -/
def execAdmitAnswer (p : PortId) (s : State) : Host.Outcome State Fault Refusal :=
  .next
    (match s.toPort p with
      | .admitted c :: rest => (s.setToPort p rest).takeAdmitted p c
      | _ => s)

/-- The port takes a DENY answer for its walking access (R39). -/
def State.takeDenied (s : State) (p : PortId) (c : Copy) (kind : FaultKind) : State :=
  if (s.port p).staleWalk then s.discardAnswer p
  else
    match (s.port p).current with
    | .walking a true =>
      (s.setLookaside p ((s.port p).lookaside.install c)).failMatch p a.toAccessHead kind (some c.window)
    | _ => s

/-- DENY_ANSWER (R39, R45). -/
def execDenyAnswer (p : PortId) (s : State) : Host.Outcome State Fault Refusal :=
  .next
    (match s.toPort p with
      | .denied c kind :: rest => (s.setToPort p rest).takeDenied p c kind
      | _ => s)

/-- The port takes a NONE answer for its walking access (R40). -/
def State.takeNoWindow (s : State) (p : PortId) : State :=
  if (s.port p).staleWalk then s.discardAnswer p
  else
    match (s.port p).current with
    | .walking a true => s.failMatch p a.toAccessHead .noWindow none
    | _ => s

/-- NONE_ANSWER (R40, R45). -/
def execNoneAnswer (p : PortId) (s : State) : Host.Outcome State Fault Refusal :=
  .next
    (match s.toPort p with
      | .noWindow :: rest => (s.setToPort p rest).takeNoWindow p
      | _ => s)

/-- The port takes a PARK answer for its walking access (R41). -/
def State.takePark (s : State) (p : PortId) (w : WindowId) : State :=
  if (s.port p).staleWalk then s.discardAnswer p
  else
    match (s.port p).current with
    | .walking a true => s.park p a w
    | _ => s

/-- PARK_ANSWER (R41, R45). -/
def execParkAnswer (p : PortId) (s : State) : Host.Outcome State Fault Refusal :=
  .next
    (match s.toPort p with
      | .park w :: rest => (s.setToPort p rest).takePark p w
      | _ => s)

/-! ### What the table takes from the ports and the engine -/

/-- In the event in which the table takes an addition, the access it was sent for is offered, if it is still the port's
current access in WAITING (R34). A port reset that abandons that access also empties the lookaside, and no later access
can hit before a walk sent behind the addition is answered, so an access that waits to be offered is always the one the
addition was sent for (DEDUCED, notes/assumptions/9.md). -/
def State.offerAdded (s : State) (p : PortId) : State :=
  match (s.port p).current with
  | .waiting a adm false => s.offer p a adm
  | _ => s

/-- ADDITION (R10, R12, R14, R34). -/
def execAddition (p : PortId) (s : State) : Host.Outcome State Fault Refusal :=
  .next
    (match s.toTable p with
      | .addition w e :: rest =>
        if s.countFull w e then s
        else (((s.takeFromPort p rest).modifyCount w e (· + 1)).evaluate w).offerAdded p
      | _ => s)

/-- The count falls by one and the pending operation is evaluated (R11, R14). -/
def State.subtract (s : State) (w : WindowId) (e : Epoch) : State :=
  (s.modifyCount w e (· - 1)).evaluate w

/-- SUBTRACTION (R11, R14). -/
def execSubtraction (sender : SubtractionSender) (s : State) : Host.Outcome State Fault Refusal :=
  .next
    (match sender with
      | .port p =>
        match s.toTable p with
        | .subtraction w e :: rest => (s.takeFromPort p rest).subtract w e
        | _ => s
      | .engine =>
        match s.links.engineToTable with
        | (w, e) :: rest => ({ s with links := { s.links with engineToTable := rest } } : State).subtract w e
        | [] => s)

/-- The acknowledgement removes port p from the outstanding set of window w if p is in it and the set generation matches;
the pending operation is then evaluated (R79, R14). Otherwise it changes nothing. -/
def State.acknowledge (s : State) (p : PortId) (w : WindowId) (g : Generation) : State :=
  match (s.record w).body with
  | none => s
  | some b =>
    if b.shootSet.contains p && b.setGeneration == some g then
      (s.setBody w (some (b.removeOutstanding p))).evaluate w
    else s

/-- ACKNOWLEDGEMENT (R79). -/
def execAcknowledgement (p : PortId) (s : State) : Host.Outcome State Fault Refusal :=
  .next
    (match s.toTable p with
      | .acknowledgement w g :: rest => (s.takeFromPort p rest).acknowledge p w g
      | _ => s)

/-- Port p leaves the outstanding set of window w, if it is in it, and the pending operation is evaluated (R16, R81). -/
def State.leaveSet (s : State) (p : PortId) (w : WindowId) : State :=
  match (s.record w).body with
  | none => s
  | some b =>
    if b.shootSet.contains p then (s.setBody w (some (b.removeOutstanding p))).evaluate w else s

/-- The table's view of port p (4.3). -/
def State.setView (s : State) (p : PortId) (offline : Bool) : State :=
  { s with table := { s.table with offlineView := vput s.table.offlineView p offline } }

/-- OFFLINE_NOTICE (R81): the port is recorded OFFLINE and leaves every outstanding set. -/
def execOfflineNotice (p : PortId) (s : State) : Host.Outcome State Fault Refusal :=
  .next
    (match s.toTable p with
      | .offlineNotice :: rest => allWindows.foldl (fun t w => t.leaveSet p w) ((s.takeFromPort p rest).setView p true)
      | _ => s)

/-- ONLINE_NOTICE (R82). -/
def execOnlineNotice (p : PortId) (s : State) : Host.Outcome State Fault Refusal :=
  .next
    (match s.toTable p with
      | .onlineNotice :: rest => (s.takeFromPort p rest).setView p false
      | _ => s)

/-! ### What the ports take from the table -/

/-- SHOOT_DOWN (R78): the entry for the window is made invalid, and an acknowledgement with the set generation is sent,
whatever the port state and the stage. -/
def execShootDown (p : PortId) (s : State) : Host.Outcome State Fault Refusal :=
  .next
    (match s.toPort p with
      | .shootDown w g :: rest =>
        let t := s.setToPort p rest
        (t.setLookaside p ((t.port p).lookaside.invalidate w)).sendToTable p (.acknowledgement w g)
      | _ => s)

/-- An access parked on the window named is walked again; any other is left (R42). -/
def State.takeRelease (s : State) (p : PortId) (w : WindowId) : State :=
  match (s.port p).current with
  | .parked a v _ => if v == w then s.startWalk p a else s
  | _ => s

/-- RELEASE_NOTICE (R42). -/
def execReleaseNotice (p : PortId) (s : State) : Host.Outcome State Fault Refusal :=
  .next
    (match s.toPort p with
      | .releaseNotice w :: rest => (s.setToPort p rest).takeRelease p w
      | _ => s)

/-- An access parked on the window named is answered RETRY; any other is left (R43). -/
def State.takeRetire (s : State) (p : PortId) (w : WindowId) : State :=
  match (s.port p).current with
  | .parked _ v _ => if v == w then s.endCurrent p .retry none else s
  | _ => s

/-- RETIRE_NOTICE (R43). -/
def execRetireNotice (p : PortId) (s : State) : Host.Outcome State Fault Refusal :=
  .next
    (match s.toPort p with
      | .retireNotice w :: rest => (s.setToPort p rest).takeRetire p w
      | _ => s)

/-- PARK_TIMER_EXPIRY (R43): the timer runs only while the current access is PARKED, and expires at the tick that its load
gives (R41, R115). Before that tick the event does not occur. -/
def execParkTimerExpiry (p : PortId) (s : State) : Host.Outcome State Fault Refusal :=
  .next (if (s.port p).current.expired then s.endCurrent p .retry none else s)

end Sys2Proof.Machine
end

