-- ==== Sys2Proof/Machine/Resets.lean ====
section
/-! DEFINITION. Port reset and its release (9.4), device reset (9.5), and the tick of the reference timebase (5.8). -/

namespace Sys2Proof.Machine

/-! ### Port reset -/

/-- The engine's part of a port reset that finds the current access ON_BUS (R114): with a part in progress the record is
marked abandoned and the part runs to its ending; otherwise the subtraction is sent, the record removed, and the arbiter
makes a choice if the bus is free. -/
def State.abandonOnBus (s : State) (p : PortId) : State :=
  match s.engine.access with
  | none => s
  | some r =>
    if r.isCurrentOf p then
      match s.engine.part with
      | some _ => s.modifyEngine fun e => { e with access := some { r with abandoned := true } }
      | none =>
        ((s.engineSubtract r.window r.epoch).modifyEngine fun e =>
          { e with access := none, retryWaiters := removePort p e.retryWaiters }).choose
    else s

/-- The port reset abandons the current access by its stage (R174). No answer is given. -/
def State.abandonCurrent (s : State) (p : PortId) : State :=
  let t := s.setCurrent p .idle
  match (s.port p).current with
  | .idle => t
  | .walking _ true => t.setStaleWalk p true
  | .walking _ false => t
  | .parked _ _ _ => t
  | .waiting _ adm _ =>
    (t.modifyEngine fun g => { g with waitingList := removePort p g.waitingList }).sendToTable p
      (.subtraction adm.window adm.epoch)
  | .onBus _ _ => t.abandonOnBus p

/-- The port state after a port reset: FENCED becomes ACTIVE, the others are kept (R173, R176). -/
def PortState.afterReset : PortState → PortState
  | .fenced => .active
  | .offline => .offline
  | .active => .active
  | .quiescing => .quiescing

/-- What a port reset does to the port unit's own state besides the current access and the slot (R173). -/
def PortUnit.afterReset (u : PortUnit) : PortUnit :=
  { u.emptyFault with
    lookaside := emptyLookaside
    epoch := u.epoch + 1
    state := u.state.afterReset }

/-- The port unit takes its port reset (R173 to R176): the current access is abandoned, the lookaside and the fault
record are emptied, the reservation broken, the slot cleared, the epoch raised, FENCED made ACTIVE, and the quiesce
condition evaluated. -/
def State.resetPort (s : State) (p : PortId) : State :=
  let t := (s.abandonCurrent p).modifyPort p PortUnit.afterReset
  ((t.setReservation p none).clearSlot p).evaluateQuiesce p

/-- Port p's reset input. -/
def State.setResetInput (s : State) (p : PortId) (b : Bool) : State :=
  s.modifyPort p fun u => { u with resetInput := b }

/-- PORT_RESET (R173): the reset is taken in the event in which the input is asserted; an input already asserted is not
asserted again. -/
def execPortReset (p : PortId) (s : State) : Host.Outcome State Fault Refusal :=
  .next (if (s.port p).resetInput then s else (s.setResetInput p true).resetPort p)

/-- PORT_RESET_RELEASE (R173): from the release, accesses are taken by the rule on arrival. -/
def execPortResetRelease (p : PortId) (s : State) : Host.Outcome State Fault Refusal :=
  .next (s.setResetInput p false)

/-! ### Device reset -/

/-- Every block at its reset value (R24, R94, R134, R177, R181, R191) and every channel empty (R77), the straps as
sampled. The reset inputs of the ports and the external master's request line are inputs, and stay as they are. The
queue of commands is not the part's. -/
def State.deviceReset (s : State) (st : Straps) : State where
  ports := Vector.ofFn fun p => resetPortUnit st p (s.port p).resetInput
  links := resetLinks
  table := resetTable st
  engine := resetEngine s.engine.extRequest s.engine.presented
  monitor := resetMonitor st
  config := resetConfig st
  pending := s.pending

/-- A port reset input still asserted at the release is taken as a port reset after it (R177). -/
def State.takeHeldReset (s : State) (p : PortId) : State :=
  if (s.port p).resetInput then s.resetPort p else s

/-- DEVICE_RESET (R177): the reset values; then the port resets whose inputs are still asserted; then the arbiter's
choice, which grants an external master whose request is asserted (R118). -/
def execDeviceReset (straps : Straps) (s : State) : Host.Outcome State Fault Refusal :=
  .next (allPorts.foldl State.takeHeldReset (s.deviceReset straps)).choose

/-! ### The reference timebase (R115) -/

/-- Every running timer takes a tick, and the ports in the retry waiters have seen one (R96, R115). -/
def State.tickTimers (s : State) : State :=
  { s with
    ports := vmap (fun u => { u with current := u.current.tick }) s.ports
    engine := { s.engine with
      timer := s.engine.timer.map Timer.tick
      retryTick := !s.engine.retryWaiters.isEmpty } }

/-- The expiries that a tick brings, as the commands that take them: the return of the retry waiters, the response timer,
and the park timers in the order of the ports. -/
def State.dueExpiries (s : State) : List Instr :=
  (if s.engine.retryWaiters = [] then [] else [.retryWaitExpiry])
    ++ (if s.engine.timer.any Timer.expired then [.responseTimerExpiry] else [])
    ++ (allPorts.filter fun p => (s.port p).current.expired).map .parkTimerExpiry

/-- One tick of the reference timebase with no command waiting: every running timer counts it, and the expiries it brings
become the commands that wait (R96, R115). -/
def State.tick (s : State) : State :=
  { s.tickTimers with pending := s.tickTimers.dueExpiries }

end Sys2Proof.Machine
end

