-- ==== Sys2Proof/Machine/UnitRequests.lean ====
section
/-! DEFINITION. The requests that port units and the configuration unit take: PORT_ONLINE and PORT_OFFLINE (9.2, 9.3),
FENCE, UNFENCE and CLEAR_FAULT (8.4), QUERY_PORT (R188), SET_PARAM (R192), CLEAR_DEVICE_FAULT (R162) and QUERY_DEVICE
(R190). No arbiter stands before these units: a request sent and not yet taken may be taken at any time (R186), and
until there is one of the kind the event does not occur. -/

namespace Sys2Proof.Machine

/-- The event in which a destination takes the issuer's request of this kind: the issuing port unit is told (R186), and
`act` is what follows. -/
def State.onRequest (s : State) (kind : RequestKind) (issuer : PortId) (act : Captured → State → State) : State :=
  match s.requestOf issuer with
  | none => s
  | some c => if c.kind == some kind then act c (s.requestTaken issuer) else s

/-- The event in which the target port unit takes a port request. The slot has already refused a target of 6 or more
(R156, R179). -/
def State.onPortRequest (s : State) (kind : RequestKind) (issuer : PortId) (act : PortId → Captured → State → State) :
    State :=
  s.onRequest kind issuer fun c t =>
    if h : c.target < 6 then act ⟨c.target, h⟩ c t else t.postResult issuer c.number (plainResult .noSuch none)

/-- Port p is a supervisor port (R165). -/
def State.supervisor (s : State) (p : PortId) : Bool := (s.port p).role == .supervisor

/-- The result of a port or device request carries no generation (R184). -/
def State.reply (s : State) (issuer : PortId) (c : Captured) (code : ResultCode) : State :=
  s.postResult issuer c.number (plainResult code none)

/-! ### Ports -/

/-- PORT_ONLINE at its target (R167). -/
def State.takeOnline (s : State) (issuer target : PortId) (c : Captured) : State :=
  if !s.supervisor issuer then s.reply issuer c .denied
  else if (s.port target).state != .offline then s.reply issuer c .state
  else
    let t := s.modifyPort target fun u => { u with state := .active }
    ((t.sendToTable target .onlineNotice).setPermission target true).reply issuer c .done

/-- PORT_ONLINE (R167). -/
def execPortOnline (issuer : PortId) (s : State) : Host.Outcome State Fault Refusal :=
  .next (s.onPortRequest .portOnline issuer fun q c t => t.takeOnline issuer q c)

/-- PORT_OFFLINE at its target (R168, R169): the target becomes QUIESCING and records the issuer, its reservation is
broken and its permission flag set to NO, and the quiesce condition is evaluated. -/
def State.takeOffline (s : State) (issuer target : PortId) (c : Captured) : State :=
  if !s.supervisor issuer then s.reply issuer c .denied
  else if target == issuer then s.reply issuer c .self
  else if target == 0 then s.reply issuer c .denied
  else if (s.port target).state == .active || (s.port target).state == .fenced then
    let t := s.modifyPort target fun u =>
      { u with state := .quiescing, offlineRequester := some (issuer, c.number) }
    ((t.setReservation target none).setPermission target false).evaluateQuiesce target
  else s.reply issuer c .state

/-- PORT_OFFLINE (R168, R169). -/
def execPortOffline (issuer : PortId) (s : State) : Host.Outcome State Fault Refusal :=
  .next (s.onPortRequest .portOffline issuer fun q c t => t.takeOffline issuer q c)

/-- FENCE at its target (R156, R157). -/
def State.takeFence (s : State) (issuer target : PortId) (c : Captured) : State :=
  if !s.supervisor issuer then s.reply issuer c .denied
  else if target == issuer then s.reply issuer c .self
  else if (s.port target).state == .active then
    (s.modifyPort target fun u => { u with state := .fenced }).reply issuer c .done
  else s.reply issuer c .state

/-- FENCE (R156, R157). -/
def execFence (issuer : PortId) (s : State) : Host.Outcome State Fault Refusal :=
  .next (s.onPortRequest .fence issuer fun q c t => t.takeFence issuer q c)

/-- UNFENCE at its target (R156, R158). -/
def State.takeUnfence (s : State) (issuer target : PortId) (c : Captured) : State :=
  if !s.supervisor issuer then s.reply issuer c .denied
  else if (s.port target).state == .fenced && (s.port target).fault.isNone then
    (s.modifyPort target fun u => { u with state := .active }).reply issuer c .done
  else s.reply issuer c .state

/-- UNFENCE (R156, R158). -/
def execUnfence (issuer : PortId) (s : State) : Host.Outcome State Fault Refusal :=
  .next (s.onPortRequest .unfence issuer fun q c t => t.takeUnfence issuer q c)

/-- The issuer is the target itself or a supervisor port: who may issue CLEAR_FAULT and QUERY_PORT (R156, R188). -/
def State.mayInspect (s : State) (issuer target : PortId) : Bool := target == issuer || s.supervisor issuer

/-- CLEAR_FAULT at its target (R156, R159). -/
def State.takeClearFault (s : State) (issuer target : PortId) (c : Captured) : State :=
  if s.mayInspect issuer target then (s.modifyPort target PortUnit.emptyFault).reply issuer c .done
  else s.reply issuer c .denied

/-- CLEAR_FAULT (R156, R159). -/
def execClearFault (issuer : PortId) (s : State) : Host.Outcome State Fault Refusal :=
  .next (s.onPortRequest .clearFault issuer fun q c t => t.takeClearFault issuer q c)

/-- What QUERY_PORT reports for a selector; none for a selector that is not 0 to 5 (R188). -/
def State.portContents (s : State) (p : PortId) (selector : Nat) : Option (Vector Word 5) :=
  let u := s.port p
  match selector with
  | 0 => some (portWords u (s.occupancy p) (s.reservation p))
  | 1 => some (faultWords u.fault none u.overflow)
  | 2 => some (lookasideWords u.lookaside 0)
  | 3 => some (lookasideWords u.lookaside 1)
  | 4 => some (lookasideWords u.lookaside 2)
  | 5 => some (lookasideWords u.lookaside 3)
  | _ => none

/-- QUERY_PORT at its target (R188). -/
def State.takeQueryPort (s : State) (issuer target : PortId) (c : Captured) : State :=
  if s.mayInspect issuer target then
    match s.portContents target c.value with
    | some ws => s.postResult issuer c.number { code := .done, generation := none, words := ws }
    | none => s.reply issuer c .invalid
  else s.reply issuer c .denied

/-- QUERY_PORT (R188). -/
def execQueryPort (issuer : PortId) (s : State) : Host.Outcome State Fault Refusal :=
  .next (s.onPortRequest .queryPort issuer fun q c t => t.takeQueryPort issuer q c)

/-! ### The device -/

/-- The configuration unit with the parameter of a selector set to a value; none if the value is out of the parameter's
range (R191, R192). -/
def ConfigUnit.setParam (g : ConfigUnit) (selector value : Nat) : Option ConfigUnit :=
  match selector with
  | 0 =>
    if Config.parkLimitMin ≤ value ∧ value ≤ Config.parkLimitMax then some { g with parkLimit := value } else none
  | 1 =>
    if Config.responseLimitMin ≤ value ∧ value ≤ Config.responseLimitMax then some { g with responseLimit := value }
    else none
  | 2 => if value ≤ Config.retryLimitMax then some { g with retryLimit := value } else none
  | k + 3 => if value ≤ Config.rankMax then some { g with ranks := vput g.ranks (Fin.ofNat 6 k) value } else none

/-- SET_PARAM at the configuration unit (R192). -/
def State.takeSetParam (s : State) (issuer : PortId) (c : Captured) : State :=
  if 8 < c.target then s.reply issuer c .noSuch
  else if !s.supervisor issuer then s.reply issuer c .denied
  else
    match s.config.setParam c.target c.value with
    | some g => ({ s with config := g } : State).reply issuer c .done
    | none => s.reply issuer c .invalid

/-- SET_PARAM (R192). -/
def execSetParam (issuer : PortId) (s : State) : Host.Outcome State Fault Refusal :=
  .next (s.onRequest .setParam issuer fun c t => t.takeSetParam issuer c)

/-- CLEAR_DEVICE_FAULT at the configuration unit (R162). -/
def State.takeClearDeviceFault (s : State) (issuer : PortId) (c : Captured) : State :=
  if s.supervisor issuer then
    ({ s with config := { s.config with fault := none, overflow := 0, alertLine := false } } : State).reply issuer c .done
  else s.reply issuer c .denied

/-- CLEAR_DEVICE_FAULT (R162). -/
def execClearDeviceFault (issuer : PortId) (s : State) : Host.Outcome State Fault Refusal :=
  .next (s.onRequest .clearDeviceFault issuer fun c t => t.takeClearDeviceFault issuer c)

/-- What QUERY_DEVICE reports for a selector; none for a selector that is neither 0 nor 1 (R190). -/
def State.deviceContents (s : State) (selector : Nat) : Option (Vector Word 5) :=
  match selector with
  | 0 => some (deviceWords s.config s.engine.store.length s.engine.waitingList.length s.occupancy)
  | 1 => some
      (faultWords (s.config.fault.map DeviceFault.info) (s.config.fault.map DeviceFault.origin) s.config.overflow)
  | _ => none

/-- QUERY_DEVICE at the configuration unit (R190). -/
def State.takeQueryDevice (s : State) (issuer : PortId) (c : Captured) : State :=
  if s.supervisor issuer then
    match s.deviceContents c.value with
    | some ws => s.postResult issuer c.number { code := .done, generation := none, words := ws }
    | none => s.reply issuer c .invalid
  else s.reply issuer c .denied

/-- QUERY_DEVICE (R190). -/
def execQueryDevice (issuer : PortId) (s : State) : Host.Outcome State Fault Refusal :=
  .next (s.onRequest .queryDevice issuer fun c t => t.takeQueryDevice issuer c)

end Sys2Proof.Machine
end

