-- ==== Sys2Proof/Machine/WindowRequests.lean ====
section
/-! DEFINITION. The window requests as the table takes them: DEFINE, AMEND, ENABLE, HOLD, RELEASE, RETIRE, SET_RIGHTS
(Section 3) and QUERY_WINDOW (R187). Each is taken only when the request arbiter chooses it (R21, R22). -/

namespace Sys2Proof.Machine

/-! ### DEFINE, AMEND, ENABLE -/

/-- The body that DEFINE gives a FREE window (R54). -/
def definedBody (t : Terms) (r : Rights) : WindowBody where
  phase := .staged
  terms := t
  rights := r
  epoch := 0
  counts := vfill 2 0
  pendingOp := none
  shootSet := []
  setGeneration := none

/-- DEFINE on a FREE window (R54): the supplied fields, state STAGED; DONE at once. -/
def State.takeDefine (s : State) (p : PortId) (c : Captured) (w : WindowId) : State :=
  match c.fieldSet with
  | none => s.refuse p c .invalid (some (s.record w).generation)
  | some (t, r) => (((s.changeWindow w (some (definedBody t r))).setLinkEpoch w none)).postDone w p c

/-- DEFINE (R49, R54). -/
def execDefine (s : State) : Host.Outcome State Fault Refusal :=
  .next (s.onTableRequest .define fun p c t => t.examineRequest .define p c fun w u => u.takeDefine p c w)

/-- AMEND on a STAGED window (R56) or on a HELD window whose HOLD is settled (R57): every field is replaced, and on a HELD
window the overlap check is made against the new fields. -/
def State.takeAmend (s : State) (p : PortId) (c : Captured) (w : WindowId) : State :=
  let g := some (s.record w).generation
  match c.fieldSet, (s.record w).body with
  | some (t, r), some b =>
    if b.phase == .held && !s.table.overlapPasses w t r then s.refuse p c .overlap g
    else (((s.changeWindow w (some { b with terms := t, rights := r })).setLinkEpoch w none)).postDone w p c
  | _, _ => s.refuse p c .invalid g

/-- AMEND (R49, R56, R57). -/
def execAmend (s : State) : Host.Outcome State Fault Refusal :=
  .next (s.onTableRequest .amend fun p c t => t.examineRequest .amend p c fun w u => u.takeAmend p c w)

/-- ENABLE on a STAGED window makes it LIVE when the overlap check on its fields passes (R58). -/
def State.takeEnable (s : State) (p : PortId) (c : Captured) (w : WindowId) : State :=
  match (s.record w).body with
  | none => s
  | some b =>
    if s.table.overlapPasses w b.terms b.rights then
      ((s.changeWindow w (some { b with phase := .live })).setLinkEpoch w (some b.epoch)).postDone w p c
    else s.refuse p c .overlap (some (s.record w).generation)

/-- ENABLE (R49, R58). -/
def execEnable (s : State) : Host.Outcome State Fault Refusal :=
  .next (s.onTableRequest .enable fun p c t => t.examineRequest .enable p c fun w u => u.takeEnable p c w)

/-! ### HOLD and RELEASE -/

/-- HOLD on a LIVE window (R59): the window becomes HELD with an unsettled HOLD, the set is filled and shoot-downs sent,
reservations naming it are broken, and the settlement condition is evaluated. -/
def State.takeHold (s : State) (p : PortId) (c : Captured) (w : WindowId) : State :=
  match (s.record w).body with
  | none => s
  | some b =>
    let t := s.startOperation w { b with phase := .held, pendingOp := some (.hold p c.number false) }
    (t.breakAndLink w none).evaluate w

/-- HOLD (R49, R59). -/
def execHold (s : State) : Host.Outcome State Fault Refusal :=
  .next (s.onTableRequest .hold fun p c t => t.examineRequest .hold p c fun w u => u.takeHold p c w)

/-- CANCELLED is posted to the requester of an unsettled HOLD, with the generation after the RELEASE (R52, R63). -/
def State.postCancelled (s : State) (w : WindowId) (op : Option PendingOp) : State :=
  match op with
  | some (.hold q n false) => s.postResult q n (plainResult .cancelled (some (s.record w).generation))
  | _ => s

/-- RELEASE on a HELD window (R63, R65): it returns to LIVE and the HOLD is removed, its requester being posted CANCELLED
if it was unsettled; the outstanding set and the counts are kept. A settled HOLD calls for the overlap check. Release
notices go to every port not OFFLINE in the table's view. DONE is posted ahead of CANCELLED, so that a slot for which both
are meant takes the RELEASE's DONE, as R63 ends, be their request numbers the same (DEDUCED,
notes/assumptions/29.md). -/
def State.takeReleaseRequest (s : State) (p : PortId) (c : Captured) (w : WindowId) : State :=
  match (s.record w).body with
  | none => s
  | some b =>
    if b.holdSettled && !s.table.overlapPasses w b.terms b.rights then
      s.refuse p c .overlap (some (s.record w).generation)
    else
      let t := (s.changeWindow w (some { b with phase := .live, pendingOp := none })).setLinkEpoch w (some b.epoch)
      let t := t.sendToPorts t.onlinePorts (.releaseNotice w)
      (t.postDone w p c).postCancelled w b.pendingOp

/-- RELEASE (R49, R63, R65). -/
def execRelease (s : State) : Host.Outcome State Fault Refusal :=
  .next (s.onTableRequest .release fun p c t => t.examineRequest .release p c fun w u => u.takeReleaseRequest p c w)

/-! ### RETIRE -/

/-- RETIRE (R66, R67, R69): a LIVE window becomes DRAINING with its set filled and shoot-downs sent; a STAGED window and a
HELD window whose HOLD is settled become FREE at once, the latter with retire notices to every port not OFFLINE. Each
breaks the reservations naming the window. -/
def State.takeRetireRequest (s : State) (p : PortId) (c : Captured) (w : WindowId) : State :=
  match (s.record w).body with
  | none => s
  | some b =>
    match b.phase with
    | .live =>
      let t := s.startOperation w { b with phase := .draining, pendingOp := some (.retire p c.number) }
      (t.breakAndLink w none).evaluate w
    | .held =>
      let t := (s.changeWindow w none).breakAndLink w none
      (t.sendToPorts t.onlinePorts (.retireNotice w)).postDone w p c
    | _ => ((s.changeWindow w none).breakAndLink w none).postDone w p c

/-- RETIRE (R49, R66, R67, R69). -/
def execRetire (s : State) : Host.Outcome State Fault Refusal :=
  .next (s.onTableRequest .retire fun p c t => t.examineRequest .retire p c fun w u => u.takeRetireRequest p c w)

/-! ### SET_RIGHTS -/

/-- The rank of a right in the order NONE, READ, READ_WRITE (R9). -/
def Right.rank : Right → Nat
  | .noRight => 0
  | .read => 1
  | .readWrite => 2

/-- Some port's new right is lower than its old one: the revision is narrowing (R9, R70). -/
def narrows (old new : Rights) : Bool := allPorts.any fun p => (new.get p).rank < (old.get p).rank

/-- Some port's right rises from NONE (R18, R70). -/
def gains (old new : Rights) : Bool := allPorts.any fun p => old.get p == .noRight && new.get p != .noRight

/-- SET_RIGHTS on a LIVE window (R70 to R72): the new rights and a pending REVISE, the set filled and shoot-downs sent; a
narrowing revision also flips the epoch, breaks the reservations naming the window and sets its link epoch to the new
epoch. -/
def State.takeSetRights (s : State) (p : PortId) (c : Captured) (w : WindowId) : State :=
  let g := some (s.record w).generation
  match decodeRights (c.params.get 3), (s.record w).body with
  | some r, some b =>
    if gains b.rights r && !s.table.overlapPasses w b.terms r then s.refuse p c .overlap g
    else
      let narrow := narrows b.rights r
      let e := if narrow then otherEpoch b.epoch else b.epoch
      let t := s.startOperation w { b with rights := r, epoch := e, pendingOp := some (.revise p c.number narrow) }
      (if narrow then t.breakAndLink w (some e) else t).evaluate w
  | _, _ => s.refuse p c .invalid g

/-- SET_RIGHTS (R49, R70). -/
def execSetRights (s : State) : Host.Outcome State Fault Refusal :=
  .next (s.onTableRequest .setRights fun p c t => t.examineRequest .setRights p c fun w u => u.takeSetRights p c w)

/-! ### QUERY_WINDOW -/

/-- Port p holds a right other than NONE in the record; a FREE record holds no rights (R187). -/
def WindowRecord.grants (r : WindowRecord) (p : PortId) : Bool :=
  match r.body with
  | none => false
  | some b => b.rights.get p != .noRight

/-- QUERY_WINDOW as the table examines and answers it (R187). -/
def State.takeQueryWindow (s : State) (p : PortId) (c : Captured) : State :=
  if h : c.target < 64 then
    let r := s.record ⟨c.target, h⟩
    let g := some r.generation
    if (s.port p).role != .supervisor && !r.grants p then s.refuse p c .denied g
    else if c.value ≤ 1 then
      s.postResult p c.number { code := .done, generation := g, words := windowWords r c.value }
    else s.refuse p c .invalid g
  else s.refuse p c .noSuch none

/-- QUERY_WINDOW (R187). -/
def execQueryWindow (s : State) : Host.Outcome State Fault Refusal :=
  .next (s.onTableRequest .queryWindow fun p c t => t.takeQueryWindow p c)

end Sys2Proof.Machine
end

