-- ==== Sys2Proof/Machine/Dispatch.lean ====
section
/-! DEFINITION. One arm for each command, in the order of spec/opcode_table.json, each a direct call of its meaning. -/

namespace Sys2Proof.Machine

/-- The effect of a command on everything but the queue of waiting commands. -/
def exec (i : Instr) (s : State) : Host.Outcome State Fault Refusal :=
  match i with
  | .accessArrival p a => Sys2Proof.Machine.execAccessArrival p a s
  | .registerWrite p word value => Sys2Proof.Machine.execRegisterWrite p word value s
  | .acknowledge p => Sys2Proof.Machine.execAcknowledge p s
  | .walk => Sys2Proof.Machine.execWalk s
  | .admitAnswer p => Sys2Proof.Machine.execAdmitAnswer p s
  | .denyAnswer p => Sys2Proof.Machine.execDenyAnswer p s
  | .noneAnswer p => Sys2Proof.Machine.execNoneAnswer p s
  | .parkAnswer p => Sys2Proof.Machine.execParkAnswer p s
  | .addition p => Sys2Proof.Machine.execAddition p s
  | .subtraction sender => Sys2Proof.Machine.execSubtraction sender s
  | .acknowledgement p => Sys2Proof.Machine.execAcknowledgement p s
  | .offlineNotice p => Sys2Proof.Machine.execOfflineNotice p s
  | .onlineNotice p => Sys2Proof.Machine.execOnlineNotice p s
  | .shootDown p => Sys2Proof.Machine.execShootDown p s
  | .releaseNotice p => Sys2Proof.Machine.execReleaseNotice p s
  | .retireNotice p => Sys2Proof.Machine.execRetireNotice p s
  | .parkTimerExpiry p => Sys2Proof.Machine.execParkTimerExpiry p s
  | .define => Sys2Proof.Machine.execDefine s
  | .amend => Sys2Proof.Machine.execAmend s
  | .enable => Sys2Proof.Machine.execEnable s
  | .hold => Sys2Proof.Machine.execHold s
  | .release => Sys2Proof.Machine.execRelease s
  | .retire => Sys2Proof.Machine.execRetire s
  | .setRights => Sys2Proof.Machine.execSetRights s
  | .queryWindow => Sys2Proof.Machine.execQueryWindow s
  | .portOnline issuer => Sys2Proof.Machine.execPortOnline issuer s
  | .portOffline issuer => Sys2Proof.Machine.execPortOffline issuer s
  | .fence issuer => Sys2Proof.Machine.execFence issuer s
  | .unfence issuer => Sys2Proof.Machine.execUnfence issuer s
  | .clearFault issuer => Sys2Proof.Machine.execClearFault issuer s
  | .queryPort issuer => Sys2Proof.Machine.execQueryPort issuer s
  | .setParam issuer => Sys2Proof.Machine.execSetParam issuer s
  | .clearDeviceFault issuer => Sys2Proof.Machine.execClearDeviceFault issuer s
  | .queryDevice issuer => Sys2Proof.Machine.execQueryDevice issuer s
  | .resultTaken p number result => Sys2Proof.Machine.execResultTaken p number result s
  | .partAck lanes number => Sys2Proof.Machine.execPartAck lanes s number
  | .partErr number => Sys2Proof.Machine.execPartErr s number
  | .partRty number => Sys2Proof.Machine.execPartRty s number
  | .responseTimerExpiry => Sys2Proof.Machine.execResponseTimerExpiry s
  | .retryWaitExpiry => Sys2Proof.Machine.execRetryWaitExpiry s
  | .externalRequest => Sys2Proof.Machine.execExternalRequest s
  | .externalWithdraw => Sys2Proof.Machine.execExternalWithdraw s
  | .externalWriteAck addr size => Sys2Proof.Machine.execExternalWriteAck addr size s
  | .entryFinishedReport p => Sys2Proof.Machine.execEntryFinishedReport p s
  | .portReset p => Sys2Proof.Machine.execPortReset p s
  | .deviceReset straps => Sys2Proof.Machine.execDeviceReset straps s
  | .portResetRelease p => Sys2Proof.Machine.execPortResetRelease p s

end Sys2Proof.Machine
end

