-- ==== Sys2Proof/Machine/Step.lean ====
section
/-! DEFINITION. One step of the part. With commands waiting, it takes the one at the front of the queue; with none, a tick
of the reference timebase passes (DESIGN CHOICE, notes/assumptions/4.md: the table has no row for a tick). -/

namespace Sys2Proof.Machine

/-- One step: the command at the front of the queue is carried out with the queue's rest; on an empty queue the timebase
ticks (R115), which changes nothing while no timer runs and no port waits to retry. -/
def step (s : State) : Host.Outcome State Fault Refusal :=
  match s.pending with
  | [] => .next s.tick
  | c :: rest => exec c { s with pending := rest }

/-- The state with the command that a word spells put at the front of its queue; unchanged where the word spells none. -/
def State.withFetchWord (s : State) (nbits w : Nat) : State :=
  match decodeTableWord nbits w with
  | none => s
  | some c => { s with pending := c :: s.pending }

end Sys2Proof.Machine
end

