-- ==== Sys2Proof/Safety.lean ====
section
/-! DEFINITION. The terms in which statements about the part are made: its laws as predicates on states, and a
vocabulary for what an event reads and changes, each written from the manual's own words and not from the meanings. -/

namespace Sys2Proof

/-- A READ or WRITE of size 4 at an aperture address that is a multiple of 4 (R28). -/
def Access.IsApertureWord (a : Access) : Prop :=
  (a.kind = .read ∨ a.kind = .write) ∧ a.size = .four ∧ 0xFFFFF000 ≤ a.addr.toNat ∧ a.addr.toNat % 4 = 0

/-- The alignment check of 2.3, step 1, fails. -/
def Access.Misaligned (a : Access) : Prop :=
  a.addr.toNat % a.size.bytes ≠ 0 ∨ (0xFFFFF000 ≤ a.addr.toNat ∧ a.size ≠ .four)

end Sys2Proof

namespace Sys2Proof.Machine

/-! ### Results and taken requests -/

/-- The slot after a result with a request number has reached it (R180): taken where the slot is PENDING with that
number, discarded otherwise. -/
def Slot.given (sl : Slot) (n : RequestNumber) (r : Result) : Slot :=
  if sl.state = .pending ∧ sl.number = n then
    { sl with state := .complete, result := resultWord r.code r.generation, resultWords := r.words, doneLine := true }
  else sl

/-- The six port units, read by port. -/
abbrev Units : Type := PortId → PortUnit

/-- Port p's unit replaced. -/
def Units.put (u : Units) (p : PortId) (x : PortUnit) : Units := fun q => if q = p then x else u q

/-- A result has reached port p's slot. -/
def Units.given (u : Units) (p : PortId) (n : RequestNumber) (r : Result) : Units :=
  u.put p { u p with slot := (u p).slot.given n r }

/-- The request that each kind code names, from code 0 on; codes 0 and 18 to 31 name none (R183). -/
def requestKinds : List (Option RequestKind) :=
  [none, some .define, some .amend, some .enable, some .hold, some .release, some .retire, some .setRights,
   some .queryWindow, some .portOnline, some .portOffline, some .fence, some .unfence, some .clearFault, some .queryPort,
   some .setParam, some .clearDeviceFault, some .queryDevice]

/-- Port p has been told that its request was taken: its stale-request flag is clear and its slot holds no request back
(R175, R186). -/
def Units.told (u : Units) (p : PortId) : Units :=
  u.put p { u p with staleRequest := false, slot := { (u p).slot with held := none } }

/-- The requests under way after port p's was taken: one held at its slot is sent (R175). -/
def State.requestsAfter (s : State) (p : PortId) : Vector (Option Captured) 6 :=
  vput s.links.requests p (s.port p).slot.held

/-- Port p has sent a request of this kind that its destination has not yet taken. -/
def State.Asks (s : State) (p : PortId) (c : Captured) (kind : RequestKind) : Prop :=
  s.requestOf p = some c ∧ c.kind = some kind

/-! ### The table's request arbiter (R21, R22) -/

/-- `p` stands first in an order among the ports that have something waiting. -/
def FirstIn (order : List PortId) (waits : PortId → Prop) (p : PortId) : Prop :=
  waits p ∧ ∃ before after, order = before ++ p :: after ∧ ∀ q ∈ before, ¬ waits q

/-- The order after `p` was served. -/
def servedOrder (order : List PortId) (p : PortId) : List PortId := order.filter (fun q => q ≠ p) ++ [p]

/-- A request of port p waits for the table: one of the kinds of R21. -/
def State.WaitsForTable (s : State) (p : PortId) : Prop :=
  ∃ c kind, s.requestOf p = some c ∧ c.kind = some kind ∧
    kind ∈ [.define, .amend, .enable, .hold, .release, .retire, .setRights, .queryWindow]

/-- The arbiter's next choice is port p's walk. -/
def State.ChoosesWalk (s : State) (p : PortId) (h : AccessHead) : Prop :=
  s.waitingWalk p = some h ∧ FirstIn s.table.walkOrder (fun q => s.waitingWalk q ≠ none) p

/-- The arbiter's next choice is port p's request: no walk waits, and p stands first among the ports with a request. -/
def State.ChoosesRequest (s : State) (p : PortId) (c : Captured) (kind : RequestKind) : Prop :=
  s.Asks p c kind ∧ (∀ q, s.waitingWalk q = none) ∧ FirstIn s.table.requestOrder s.WaitsForTable p

/-- The requester may act on window w: it names w, comes from a supervisor port, and carries ANY or w's generation
(R49, steps 1 to 3). -/
def State.MayChange (s : State) (p : PortId) (c : Captured) (w : WindowId) : Prop :=
  c.target = w.val ∧ (s.port p).role = .supervisor ∧ (c.any = true ∨ c.expected = (s.record w).generation)

/-! ### Windows -/

/-- An access of port p at address a matches window w (R17). -/
def State.Matches (s : State) (p : PortId) (a : LocalAddr) (w : WindowId) : Prop :=
  ∃ b, (s.record w).body = some b ∧ (b.phase = .live ∨ b.phase = .held) ∧ b.rights.get p ≠ .noRight ∧
    b.terms.localBase.toNat ≤ a.toNat ∧ a.toNat < b.terms.localBase.toNat + 2 ^ b.terms.sizeCode.val

/-- The four checks of 2.3, steps 4 to 7, in their order, each with the fault kind of its failure. -/
def accessChecks (t : Terms) (right : Right) (h : AccessHead) : List (Bool × FaultKind) :=
  [ (decide (t.level = .privileged ∧ h.level = .user), .denied),
    (decide (t.fetch = .barred ∧ (h.kind = .read ∨ h.kind = .linkedRead) ∧ h.cls = .fetch), .denied),
    (decide (right = .read ∧ (h.kind = .write ∨ h.kind = .conditionalWrite)), .denied),
    (decide ((h.kind = .linkedRead ∨ h.kind = .conditionalWrite) ∧ (t.linkable = false ∨ h.size ≠ .four)), .link) ]

/-- The fault kind of the first check that fails; absent where all pass. -/
def firstFailure (t : Terms) (right : Right) (h : AccessHead) : Option FaultKind :=
  ((accessChecks t right h).find? Prod.fst).map Prod.snd

/-- The copy of a window that the table answers to port p (R20). -/
def copyOf (w : WindowId) (g : Generation) (b : WindowBody) (p : PortId) : Copy where
  window := w
  generation := g
  terms := b.terms
  right := b.rights.get p
  epoch := b.epoch

/-- A window v other than w is LIVE or HELD, shares a local address with these fields, and some port holds a right in
both (R18). -/
def State.Overlaps (s : State) (w : WindowId) (t : Terms) (r : Rights) : Prop :=
  ∃ v b, v ≠ w ∧ (s.record v).body = some b ∧ (b.phase = .live ∨ b.phase = .held) ∧
    (∃ a : Nat, (t.localBase.toNat ≤ a ∧ a < t.localBase.toNat + 2 ^ t.sizeCode.val) ∧
      (b.terms.localBase.toNat ≤ a ∧ a < b.terms.localBase.toNat + 2 ^ b.terms.sizeCode.val)) ∧
    ∃ p, r.get p ≠ .noRight ∧ b.rights.get p ≠ .noRight

/-- The ports that are not OFFLINE in the table's view, in the order I0 to I5 (4.3). -/
def State.viewedOnline (s : State) : List PortId := [0, 1, 2, 3, 4, 5].filter fun p => s.table.offlineView.get p = false

/-- What is sent to each port when a message goes to every port not OFFLINE in the table's view (R53). -/
def State.notified (s : State) (m : TableMessage) (q : PortId) : List TableMessage :=
  if s.table.offlineView.get q = false then s.toPort q ++ [m] else s.toPort q

/-- The conditions of a record that R50 tells apart. -/
inductive RecordCondition where
  | free | staged | liveOpen | liveBlocked | heldUnsettled | heldSettled | draining
deriving DecidableEq, Repr

/-- The condition of a record (R6, R50). -/
def WindowRecord.recordCondition (r : WindowRecord) : RecordCondition :=
  match r.body with
  | none => .free
  | some b =>
    match b.phase with
    | .staged => .staged
    | .draining => .draining
    | .live => if b.pendingOp = none ∧ b.shootSet = [] then .liveOpen else .liveBlocked
    | .held => if ∃ q n, b.pendingOp = some (.hold q n true) then .heldSettled else .heldUnsettled

/-- The table of R50, row by row, with its columns DEFINE, AMEND, ENABLE, HOLD, RELEASE, RETIRE, SET_RIGHTS; `none` is
Accepted. -/
def conditionTable : RecordCondition → List (Option ResultCode)
  | .free => [none, some .state, some .state, some .state, some .state, some .state, some .state]
  | .staged => [some .state, none, none, some .state, some .state, none, some .state]
  | .liveOpen => [some .state, some .state, some .state, none, some .state, none, none]
  | .liveBlocked => [some .state, some .state, some .state, some .busy, some .state, some .busy, some .busy]
  | .heldUnsettled => [some .state, some .busy, some .state, some .busy, none, some .busy, some .busy]
  | .heldSettled => [some .state, none, some .state, some .state, none, none, some .state]
  | .draining => [some .state, some .state, some .state, some .state, some .state, some .state, some .state]

/-- The window requests in the order of the table's columns, each with the command in which the table takes it. -/
def windowRequests : List (RequestKind × Instr) :=
  [(.define, .define), (.amend, .amend), (.enable, .enable), (.hold, .hold), (.release, .release),
   (.retire, .retire), (.setRights, .setRights)]

/-- The counts of a record after one is raised or lowered. -/
def WindowBody.withCount (b : WindowBody) (e : Epoch) (n : Nat) : WindowBody := { b with counts := vput b.counts e n }

/-- The outstanding set without port p; its set generation is absent once it is empty (R16, R80). -/
def WindowBody.withoutPort (b : WindowBody) (p : PortId) : WindowBody :=
  { b with
    shootSet := b.shootSet.filter fun q => q ≠ p
    setGeneration := if (b.shootSet.filter fun q => q ≠ p) = [] then none else b.setGeneration }

/-- The condition under which a record's pending operation settles or finishes (R88 to R90); a settled HOLD is not
evaluated again (R14). -/
def WindowBody.conditionMet (b : WindowBody) : Bool :=
  match b.pendingOp with
  | none => false
  | some (.hold _ _ settled) => decide (settled = false ∧ b.shootSet = [] ∧ b.counts.get 0 = 0 ∧ b.counts.get 1 = 0)
  | some (.retire _ _) => decide (b.shootSet = [] ∧ b.counts.get 0 = 0 ∧ b.counts.get 1 = 0)
  | some (.revise _ _ narrowing) =>
    decide (b.shootSet = [] ∧ (narrowing = true → ∀ e, e ≠ b.epoch → b.counts.get e = 0))

/-- The requester port and request number of a pending operation (R13). -/
def PendingOp.requester : PendingOp → PortId
  | .hold q _ _ => q
  | .retire q _ => q
  | .revise q _ _ => q

def PendingOp.number : PendingOp → RequestNumber
  | .hold _ n _ => n
  | .retire _ n => n
  | .revise _ n _ => n

/-- What a record becomes when its pending operation's condition is met (R14): a HOLD is marked settled, a RETIRE leaves
the window FREE, a REVISE is removed. -/
def WindowBody.finished (b : WindowBody) : Option WindowBody :=
  match b.pendingOp with
  | none => some b
  | some (.hold q n _) => some { b with pendingOp := some (.hold q n true) }
  | some (.retire _ _) => none
  | some (.revise _ _ _) => some { b with pendingOp := none }

/-- The record of a window whose body b, at generation g, has just been evaluated (R14): finished where the condition of
its pending operation is met, b itself where it is not. -/
def evaluatedRecord (g : Generation) (b : WindowBody) : WindowRecord where
  generation := g
  body := if b.conditionMet then b.finished else some b

/-- The port units after the evaluation of a body at generation g (R14): DONE is posted to the requester of a pending
operation whose condition is met. -/
def Units.evaluated (u : Units) (g : Generation) (b : WindowBody) : Units :=
  match b.pendingOp with
  | none => u
  | some op => if b.conditionMet then u.given op.requester op.number (plainResult .done (some g)) else u

/-- The reservations after a break naming window w (R143). -/
def State.brokenFor (s : State) (w : WindowId) : Vector (Option Reservation) 6 :=
  Vector.ofFn fun q => if (s.reservation q).any fun r => r.window = w then none else s.reservation q

/-- Some port's right falls: the revision is narrowing (R9, R70). -/
def Narrows (old new : Rights) : Prop :=
  ∃ p, (old.get p = .readWrite ∧ new.get p ≠ .readWrite) ∨ (old.get p = .read ∧ new.get p = .noRight)

/-- Some port's right rises from NONE (R18, R70). -/
def Gains (old new : Rights) : Prop := ∃ p, old.get p = .noRight ∧ new.get p ≠ .noRight

/-! ### Channels -/

/-- What port p has sent to the table and the table has not taken, in the order sent: a walk that waits at the request
arbiter stands before what is on the channel (R76). -/
def State.sentBy (s : State) (p : PortId) : List PortMessage :=
  (match s.waitingWalk p with
    | none => []
    | some h => [.walk h]) ++ s.toTable p

/-- Port p sends these messages, and no other port sends anything. -/
def State.Sends (s t : State) (p : PortId) (ms : List PortMessage) : Prop :=
  t.sentBy p = s.sentBy p ++ ms ∧ ∀ q, q ≠ p → t.toTable q = s.toTable q ∧ t.waitingWalk q = s.waitingWalk q

/-- The table takes the message m that stands first on port p's channel, and no other port's channel changes. -/
def State.Takes (s t : State) (p : PortId) (m : PortMessage) (rest : List PortMessage) : Prop :=
  s.toTable p = m :: rest ∧
  t.sentBy p = (match s.waitingWalk p with
    | none => rest
    | some h => .walk h :: rest) ∧
  ∀ q, q ≠ p → t.toTable q = s.toTable q ∧ t.waitingWalk q = s.waitingWalk q

/-! ### Port units -/

/-- The lookaside entry that an address hits: the most recently used of those that contain it (R33). -/
def Lookaside.Hits (l : Lookaside) (a : LocalAddr) (i : Fin 4) (c : Copy) : Prop :=
  l.entries.get i = some c ∧
  (c.terms.localBase.toNat ≤ a.toNat ∧ a.toNat < c.terms.localBase.toNat + 2 ^ c.terms.sizeCode.val) ∧
  ∃ before after, l.order = before ++ i :: after ∧
    ∀ j ∈ before, ∀ d, l.entries.get j = some d →
      ¬ (d.terms.localBase.toNat ≤ a.toNat ∧ a.toNat < d.terms.localBase.toNat + 2 ^ d.terms.sizeCode.val)

/-- No valid entry contains the address (R33). -/
def Lookaside.Misses (l : Lookaside) (a : LocalAddr) : Prop :=
  ∀ j ∈ l.order, ∀ d, l.entries.get j = some d →
    ¬ (d.terms.localBase.toNat ≤ a.toNat ∧ a.toNat < d.terms.localBase.toNat + 2 ^ d.terms.sizeCode.val)

/-- Entry i made the most recently used, the others in the order they had (R33, R35). -/
def Lookaside.recent (l : Lookaside) (i : Fin 4) : Lookaside :=
  { l with order := i :: l.order.filter fun j => j ≠ i }

/-- Port p takes an access whose outcome its port state decides: none is under way and its reset input is released. -/
def State.Ready (s : State) (p : PortId) : Prop :=
  (s.port p).current = .idle ∧ (s.port p).resetInput = false

/-- Port p's slot can be reached through its aperture (R28). -/
def State.SlotOpen (s : State) (p : PortId) : Prop := s.Ready p ∧ (s.port p).state ≠ .offline

/-- The port unit after a fault is offered to it (R150 to R152). -/
def PortUnit.offered (u : PortUnit) (f : FaultInfo) : PortUnit :=
  if u.fault = none then { u with fault := some f, faultLine := true }
  else if f.deferred = true ∧ u.state = .active then { u with overflow := min (u.overflow + 1) 255, state := .fenced }
  else { u with overflow := min (u.overflow + 1) 255 }

/-- The port unit after it answered its current access, with no fault (R26). -/
def PortUnit.answered (u : PortUnit) (a : Answer) : PortUnit := { u with current := .idle, answer := some a }

/-- The return of port p's current access to IDLE does not complete a quiesce (R170). -/
def State.KeepsState (s : State) (p : PortId) : Prop :=
  (s.port p).state ≠ .quiescing ∨ (s.port p).occupancyCopy ≠ 0

/-- The match fault of an access (R31). -/
def matchFaultOf (a : Access) (kind : FaultKind) (w : Option WindowId) : FaultInfo where
  kind := kind
  deferred := false
  localAddr := some a.addr
  accessKind := a.kind
  size := a.size
  cls := a.cls
  level := a.level
  window := w
  sysAddr := none
  parts := none

/-- A slot as a clearing leaves it (R175, R181). -/
def Slot.emptied (sl : Slot) : Slot where
  state := .idle
  overrun := false
  number := sl.number
  request := 0
  params := vfill 6 0
  result := 0
  resultWords := vfill 5 0
  held := none
  doneLine := false

/-- The port unit after it entered OFFLINE (R171); `untaken` says that a request of its slot has not been taken. -/
def PortUnit.offlined (u : PortUnit) (untaken : Bool) : PortUnit :=
  { u with
    state := .offline
    lookaside := { entries := vfill 4 none, order := [] }
    slot := u.slot.emptied
    staleRequest := u.staleRequest || untaken
    offlineRequester := none }

/-- Port p's unit u has entered OFFLINE among the units `us`, and DONE was posted to its offline requester (R171). -/
def Units.wentOffline (us : Units) (p : PortId) (untaken : Bool) : Units :=
  match (us p).offlineRequester with
  | none => us.put p ((us p).offlined untaken)
  | some (q, n) => (us.put p ((us p).offlined untaken)).given q n (plainResult .done none)

/-- The quiesce condition of a QUIESCING port is met (R170). -/
def PortUnit.QuiesceMet (u : PortUnit) : Prop := u.state = .quiescing ∧ u.current = .idle ∧ u.occupancyCopy = 0

/-- The state t after port p's unit has become x in s: x as it is, or, where its quiesce condition is met, gone OFFLINE with
its offline notice sent and DONE posted to its offline requester (R170, R171). -/
def State.Becomes (s : State) (p : PortId) (x : PortUnit) (t : State) : Prop :=
  (¬ x.QuiesceMet → t = { s with ports := vput s.ports p x }) ∧
  (x.QuiesceMet → s.Sends t p [.offlineNotice] ∧
    t.port = (Units.put s.port p x).wentOffline p (s.requestOf p).isSome ∧
    t = { s with
      ports := t.ports
      links := { s.links with toTable := t.links.toTable }
      table := { s.table with walks := t.table.walks } })

/-! ### The engine -/

/-- The part that comes after `done` completed parts of an access (R103, R104). -/
def partAt (r : BusAccess) (done : Nat) : BusPart :=
  let size := partSize r.size r.width
  let addr := r.sysAddr + BitVec.ofNat 36 (done * size.bytes)
  { addr := addr
    size := size
    isWrite := decide (r.kind = .write ∨ r.kind = .conditionalWrite)
    data := Vector.ofFn fun i =>
      if (r.kind = .write ∨ r.kind = .conditionalWrite) ∧ addr.toNat % 4 ≤ i.val ∧ i.val < addr.toNat % 4 + size.bytes
      then r.data.get i else none }

/-- The bus access record is r, not abandoned, and its next part is presented (R106). -/
def State.Presents (s : State) (r : BusAccess) : Prop :=
  s.engine.access = some r ∧ r.abandoned = false ∧ s.engine.part = some (partAt r r.partsDone)

/-- The response timer has run out: it was loaded with n and has taken n + 1 ticks (R115). -/
def State.TimerRanOut (s : State) : Prop := ∃ n k, s.engine.timer = some { limit := n, ticks := k } ∧ n < k

/-- A command that ends the part of r, the part presented, in a failure of the access, with its fault kind (R106, R108 to
R110). -/
def State.EndsInFailure (s : State) (r : BusAccess) (i : Instr) (k : FaultKind) : Prop :=
  (i = .partErr s.engine.presented ∧ k = .targetError) ∨
  (i = .responseTimerExpiry ∧ k = .targetTimeout ∧ s.TimerRanOut) ∨
  (i = .partRty s.engine.presented ∧ k = .retryExhausted ∧ r.retryLimit < r.retryCount + 1)

/-- The engine with the bus access record removed, no part presented and the bus free (R111, R112). -/
def Engine.idled (e : Engine) : Engine := { e with access := none, part := none, timer := none, holder := .free }

/-- The bytes of a read part, placed into the assembled data on their lanes (R104). -/
def assembledWith (l : Lanes) (part : BusPart) (lanes : Word) : Lanes :=
  Vector.ofFn fun i =>
    if part.isWrite = false ∧ part.addr.toNat % 4 ≤ i.val ∧ i.val < part.addr.toNat % 4 + part.size.bytes
    then some (lanes.extractLsb' (8 * i.val) 8) else l.get i

/-- The reservations after a write part at an address ended ACK (R141): those on the 16-byte granule that contains it are
broken. -/
def State.brokenAt (s : State) (a : SysAddr) : Vector (Option Reservation) 6 :=
  Vector.ofFn fun q => if (s.reservation q).any fun r => r.granule.toNat = a.toNat / 16 * 16 then none else s.reservation q

/-- The answer of a non-posted access whose last part ended ACK: DONE, with the assembled data for a read (R112). -/
def doneAnswer (r : BusAccess) (lanes : Word) : Answer :=
  .done (if r.kind = .write ∨ r.kind = .conditionalWrite then none
    else some (assembledWith r.assembled (partAt r r.partsDone) lanes))

/-- The reservations after the last part of r ended ACK: a write breaks those on its granule, and a linked read sets its
port's where the permission flag is YES and the link epoch is that of the access (R137, R141). -/
def State.reservationsDone (s : State) (r : BusAccess) : Vector (Option Reservation) 6 :=
  if r.kind = .write ∨ r.kind = .conditionalWrite then s.brokenAt (partAt r r.partsDone).addr
  else if r.kind = .linkedRead ∧ s.monitor.permission.get r.origin = true ∧
      s.monitor.linkEpoch.get r.window = some r.epoch then
    vput s.monitor.reservations r.origin
      (some { granule := BitVec.ofNat 36 (r.sysAddr.toNat / 16 * 16), window := r.window })
  else s.monitor.reservations

/-- The write data of an access on the lanes of its own bytes (R104). -/
def writeLanes (at0 : SysAddr) (size : AccessSize) (data : Word) : Lanes :=
  Vector.ofFn fun i =>
    if at0.toNat % 4 ≤ i.val ∧ i.val < at0.toNat % 4 + size.bytes then some (data.extractLsb' (8 * i.val) 8) else none

/-- The terms under which an access is admitted through a copy, its address translated (R19, R34, R38, R120). -/
def admissionOf (c : Copy) (a : Access) : Admission where
  window := c.window
  epoch := c.epoch
  sysAddr := BitVec.ofNat 36 (c.terms.targetBase.toNat + (a.addr.toNat - c.terms.localBase.toNat))
  width := c.terms.width
  linkable := c.terms.linkable
  posted := decide (a.kind = .write ∧ c.terms.posting = .posted)

/-- The store entry of a posted write (R119, R120). -/
def entryOf (p : PortId) (epoch : PortEpoch) (a : Access) (adm : Admission) : StoreEntry where
  port := p
  portEpoch := epoch
  window := adm.window
  epoch := adm.epoch
  sysAddr := adm.sysAddr
  size := a.size
  data := writeLanes adm.sysAddr a.size a.data
  width := adm.width
  cls := a.cls
  level := a.level
  partsDone := 0

/-- Under both bounds the store has room for a write of port p (R121). -/
def State.HasRoom (s : State) (p : PortId) : Prop :=
  s.engine.store.length < 16 ∧ (s.engine.store.filter fun e => e.port = p).length < 8

/-- The bus access record formed from a current access at its first grant, with the retry limit then in force (R101,
R103, R106). -/
def recordOfAccess (p : PortId) (a : Access) (adm : Admission) (retryLimit : Nat) : BusAccess where
  origin := p
  fromStore := false
  kind := a.kind
  size := a.size
  sysAddr := adm.sysAddr
  data := if a.kind = .write ∨ a.kind = .conditionalWrite then writeLanes adm.sysAddr a.size a.data else vfill 4 none
  width := adm.width
  window := adm.window
  epoch := adm.epoch
  partsTotal := a.size.bytes / min a.size.bytes adm.width.bytes
  partsDone := 0
  retryCount := 0
  retryLimit := retryLimit
  assembled := vfill 4 none
  abandoned := false

/-- The bus access record formed from a store entry at its first grant (R101, R126). -/
def recordOfEntry (e : StoreEntry) (retryLimit : Nat) : BusAccess where
  origin := e.port
  fromStore := true
  kind := .write
  size := e.size
  sysAddr := e.sysAddr
  data := e.data
  width := e.width
  window := e.window
  epoch := e.epoch
  partsTotal := e.size.bytes / min e.size.bytes e.width.bytes
  partsDone := e.partsDone
  retryCount := 0
  retryLimit := retryLimit
  assembled := vfill 4 none
  abandoned := false

/-- The bus fault of an access that failed on the bus (R111). -/
def busFaultOf (kind : FaultKind) (r : BusAccess) (a : Access) : FaultInfo where
  kind := kind
  deferred := false
  localAddr := some a.addr
  accessKind := a.kind
  size := a.size
  cls := a.cls
  level := a.level
  window := some r.window
  sysAddr := some r.sysAddr
  parts := if 1 < r.partsTotal then some (r.partsDone, r.partsTotal) else none

/-- The deferred fault of a store entry that failed (R128). -/
def deferredFaultOf (kind : FaultKind) (e : StoreEntry) (total : Nat) : FaultInfo where
  kind := kind
  deferred := true
  localAddr := none
  accessKind := .write
  size := e.size
  cls := e.cls
  level := e.level
  window := some e.window
  sysAddr := some e.sysAddr
  parts := if 1 < total then some (e.partsDone, total) else none

/-- Port p's oldest entry in the store is e, and `before ++ after` are the others (R119, R125). -/
def State.OldestEntry (s : State) (p : PortId) (e : StoreEntry) (before after : List StoreEntry) : Prop :=
  s.engine.store = before ++ e :: after ∧ e.port = p ∧ ∀ d ∈ before, d.port ≠ p

/-- Port p has no entry in the store. -/
def State.NoEntry (s : State) (p : PortId) : Prop := ∀ e ∈ s.engine.store, e.port ≠ p

/-- Port p's current access is a non-posted access offered to the engine and not granted (R95). -/
def State.OffersAccess (s : State) (p : PortId) (a : Access) (adm : Admission) : Prop :=
  (s.port p).current = .waiting a adm true ∧ adm.posted = false

/-- Port p has a candidate that has not been granted: a store entry, or its current access (R95). -/
def State.HasCandidate (s : State) (p : PortId) : Prop :=
  (∃ e ∈ s.engine.store, e.port = p) ∨ ∃ a adm, s.OffersAccess p a adm

/-- Port p's current access is held as the bus access record, which waits to be granted again (R95). -/
def State.Resumes (s : State) (p : PortId) : Prop :=
  ∃ r a adm, s.engine.access = some r ∧ r.origin = p ∧ r.fromStore = false ∧ r.abandoned = false ∧
    (s.port p).current = .onBus a adm

/-- Port p has an eligible candidate: it offers one, is not in the retry waiters, and no other port's access or entry
occupies the bus access record (R95, R96, R98). -/
def State.Competes (s : State) (p : PortId) : Prop :=
  (s.HasCandidate p ∨ s.Resumes p) ∧ p ∉ s.engine.retryWaiters ∧ ∀ r, s.engine.access = some r → r.origin = p

/-- With no request of the external master, the arbiter grants port p: of the ports with an eligible candidate and the
highest rank, the first in the rotation order (R99). -/
def State.GrantsFirst (s : State) (p : PortId) : Prop :=
  s.Competes p ∧ (∀ q, s.Competes q → s.config.ranks.get q ≤ s.config.ranks.get p) ∧
  ∃ before after, s.engine.rotation = before ++ p :: after ∧
    ∀ q ∈ before, s.Competes q → s.config.ranks.get q < s.config.ranks.get p

/-- The response timer as a part starts (R106). -/
def State.freshTimer (s : State) : Option Timer := some { limit := s.config.responseLimit, ticks := 0 }

/-- The engine after the grant of port p with the record r, whose next part is presented (R99, R101, R106). -/
def State.grantedEngine (s : State) (p : PortId) (r : BusAccess) : Engine :=
  { s.engine with
    holder := if r.fromStore then .storeEntry p else .portAccess p
    rotation := servedOrder s.engine.rotation p
    access := some r
    part := some (partAt r r.partsDone)
    presented := s.engine.presented + 1
    timer := s.freshTimer }

/-- Port p holds a reservation on the granule of a system address (R139). -/
def State.HoldsGranule (s : State) (p : PortId) (a : SysAddr) : Prop :=
  ∃ r, s.reservation p = some r ∧ r.granule.toNat = a.toNat / 16 * 16

/-- The bus access record with which port p is granted, and the stage of its current access then: the record already
present is kept, and a first grant forms it from the port's oldest store entry, or else from its offered access, which
moves to ON_BUS (R95, R101). -/
def State.GrantRecord (s : State) (p : PortId) (r : BusAccess) (c : CurrentAccess) : Prop :=
  (s.engine.access = some r ∧ c = (s.port p).current) ∨
  (s.engine.access = none ∧ ∃ e before after, s.OldestEntry p e before after ∧
    r = recordOfEntry e s.config.retryLimit ∧ c = (s.port p).current) ∨
  (s.engine.access = none ∧ s.NoEntry p ∧ ∃ a adm, s.OffersAccess p a adm ∧
    r = recordOfAccess p a adm s.config.retryLimit ∧ c = .onBus a adm)

/-- Port p is granted with the record r and its part starts, its current access in stage c (R101). -/
def State.started (s : State) (p : PortId) (r : BusAccess) (c : CurrentAccess) : State :=
  { s with ports := vput s.ports p { s.port p with current := c }, engine := s.grantedEngine p r }

/-- The choices that the arbiter makes in one event at a free bus, from s to t (R98, R99, R113). -/
inductive State.Chooses : State → State → Prop
  /-- The external master asks, and is granted (R99, R116). -/
  | external {s : State} : s.engine.extRequest = true →
      Chooses s { s with engine := { s.engine with holder := .external, extGrant := true } }
  /-- No candidate is eligible, and the bus stays free (R98). -/
  | nothing {s : State} : s.engine.extRequest = false → (∀ p, ¬ s.GrantsFirst p) → Chooses s s
  /-- A port is granted, and the part of an access other than a conditional write starts (R101). -/
  | starts {s : State} {p : PortId} {r : BusAccess} {c : CurrentAccess} : s.engine.extRequest = false →
      s.GrantsFirst p → s.GrantRecord p r c → r.kind ≠ .conditionalWrite → Chooses s (s.started p r c)
  /-- A conditional write whose port holds a reservation on its granule consumes it, and its part starts (R113, R139). -/
  | consumes {s : State} {p : PortId} {r : BusAccess} {c : CurrentAccess} : s.engine.extRequest = false →
      s.GrantsFirst p → s.GrantRecord p r c → r.kind = .conditionalWrite → s.HoldsGranule p r.sysAddr →
      Chooses s { s.started p r c with
        monitor := { s.monitor with reservations := vput s.monitor.reservations p none } }
  /-- A conditional write whose port holds none is answered LINK_FAILED and subtracted without a cycle; the port has moved
  to the end of the rotation order, and the arbiter makes a choice again (R99, R112, R113). -/
  | linkFailed {s t u : State} {p : PortId} {r : BusAccess} {c : CurrentAccess} : s.engine.extRequest = false →
      s.GrantsFirst p → s.GrantRecord p r c → r.kind = .conditionalWrite → ¬ s.HoldsGranule p r.sysAddr →
      s.Becomes p ((s.port p).answered .linkFailed) t →
      Chooses
        { t with
          links := { t.links with engineToTable := t.links.engineToTable ++ [(r.window, r.epoch)] }
          engine := { t.engine with
            rotation := servedOrder s.engine.rotation p, access := none, holder := .free } } u →
      Chooses s u

/-- Nothing waits for the bus but what port p may hold: the external master does not request it, and no other port has a
candidate. -/
def State.NoneElseWaits (s : State) (p : PortId) : Prop :=
  s.engine.extRequest = false ∧ ∀ q, q ≠ p → ¬ s.HasCandidate q

/-! ### The laws of the part -/

/-- FAULT follows the port fault record, ALERT the device fault record (R163), DONE the slot's state (R180). -/
def State.LinesFollowRecords (s : State) : Prop :=
  (∀ p, ((s.port p).faultLine = true ↔ (s.port p).fault ≠ none) ∧
    ((s.port p).slot.doneLine = true ↔ (s.port p).slot.state = .complete)) ∧
  (s.config.alertLine = true ↔ s.config.fault ≠ none)

/-- The store holds at most 16 entries, at most 8 of them from one port (R121). -/
def State.StoreWithinBounds (s : State) : Prop :=
  s.engine.store.length ≤ 16 ∧ ∀ p, (s.engine.store.filter fun e => e.port = p).length ≤ 8

/-- For each port and each local address, at most one window matches (R18). -/
def State.AtMostOneMatch (s : State) : Prop :=
  ∀ p a v w, s.Matches p a v → s.Matches p a w → v = w

/-- A pending HOLD stands on a HELD window only, a RETIRE on a DRAINING one, a REVISE on a LIVE one (R13, R50), and a HELD
or DRAINING window carries one. -/
def WindowBody.OperationFits (b : WindowBody) : Prop :=
  match b.phase, b.pendingOp with
  | .staged, none => True
  | .live, none => True
  | .live, some (.revise _ _ _) => True
  | .held, some (.hold _ _ _) => True
  | .draining, some (.retire _ _) => True
  | _, _ => False

/-- Pending operations fit their windows' states; the link epoch of a window is present exactly while it is LIVE, and then
equals its epoch (R134, R143); and a reservation's window is LIVE (R147). -/
def State.LinksFollowWindows (s : State) : Prop :=
  (∀ w b, (s.record w).body = some b → b.OperationFits) ∧
  (∀ w e, s.monitor.linkEpoch.get w = some e ↔
    ∃ b, (s.record w).body = some b ∧ b.phase = .live ∧ b.epoch = e) ∧
  ∀ p r, s.reservation p = some r → ∃ b, (s.record r.window).body = some b ∧ b.phase = .live

/-- A reservation's window grants its port a right (R147). -/
def State.ReservationsHaveRights (s : State) : Prop :=
  ∀ p r, s.reservation p = some r → ∃ b, (s.record r.window).body = some b ∧ b.rights.get p ≠ .noRight

/-- A linked read on the bus that was admitted under its window's link epoch comes from a port with a right in the window:
copies counted under the current epoch grant rights that the record also grants (R147). -/
def State.LinkedReadHasRight (s : State) : Prop :=
  ∀ r, s.engine.access = some r → r.kind = .linkedRead → s.monitor.linkEpoch.get r.window = some r.epoch →
    ∃ b, (s.record r.window).body = some b ∧ b.rights.get r.origin ≠ .noRight

/-- An outstanding set holds ports in order, each at most once, and has a set generation exactly while it is not empty
(R15, R80). -/
def State.SetsHaveGenerations (s : State) : Prop :=
  ∀ w b, (s.record w).body = some b →
    b.shootSet.Sublist [0, 1, 2, 3, 4, 5] ∧ (b.setGeneration = none ↔ b.shootSet = [])

/-- The fields of every window are valid (R1, R2). -/
def Terms.IsValid (t : Terms) : Prop :=
  12 ≤ t.sizeCode.val ∧ 2 ^ t.sizeCode.val ∣ t.localBase.toNat ∧
  t.localBase.toNat + 2 ^ t.sizeCode.val ≤ 0xFFFFF000 ∧
  2 ^ t.sizeCode.val ∣ t.targetBase.toNat ∧ t.targetBase.toNat + 2 ^ t.sizeCode.val ≤ 2 ^ 36 ∧
  (t.linkable = true → t.width = .w32)

def State.FieldsValid (s : State) : Prop := ∀ w b, (s.record w).body = some b → b.terms.IsValid

/-- No in-flight count exceeds 23 (R1, R12). -/
def State.CountsWithinBounds (s : State) : Prop :=
  ∀ w b, (s.record w).body = some b → ∀ e, b.counts.get e ≤ 23

/-- The records hold legal values: valid fields, sets that have their generations, and counts in their range (R1, R2, R12,
R15, R80). -/
def State.RecordsLegal (s : State) : Prop := s.FieldsValid ∧ s.SetsHaveGenerations ∧ s.CountsWithinBounds

/-- Port I0 is ACTIVE or FENCED, and not OFFLINE in the table's view (R166, the note to R53). -/
def State.PortZeroServes (s : State) : Prop :=
  ((s.port 0).state = .active ∨ (s.port 0).state = .fenced) ∧ s.table.offlineView.get 0 = false ∧
  PortMessage.offlineNotice ∉ s.toTable 0

/-- An OFFLINE port holds no lookaside entries, no reservation, no current access and no store entries (R171). -/
def State.OfflinePortsHoldNothing (s : State) : Prop :=
  ∀ p, (s.port p).state = .offline →
    (s.port p).lookaside = { entries := vfill 4 none, order := [] } ∧ s.reservation p = none ∧
    (s.port p).current = .idle ∧ s.NoEntry p

/-- What keeps the law of R171: a store entry on the bus is in the store; a port's occupancy copy counts its entries and
the reports it has not yet taken (R127, R164); a port that is QUIESCING or OFFLINE has its permission flag at NO and no
reservation (R146); and an OFFLINE port's copy is 0. -/
def State.PortsAccountForWork (s : State) : Prop :=
  s.OfflinePortsHoldNothing ∧
  (∀ r, s.engine.access = some r → r.fromStore = true → ¬ s.NoEntry r.origin) ∧
  (∀ p, (s.port p).occupancyCopy
    = (s.engine.store.filter fun e => e.port = p).length + s.links.reports.get p) ∧
  (∀ p, (s.port p).state = .quiescing ∨ (s.port p).state = .offline →
    s.monitor.permission.get p = false ∧ s.reservation p = none) ∧
  ∀ p, (s.port p).state = .offline → (s.port p).occupancyCopy = 0

/-- No port is left QUIESCING with its quiesce condition met: it has entered OFFLINE in the event that met it (R170,
R171). -/
def State.NoneLeftQuiesced (s : State) : Prop := ∀ p, ¬ (s.port p).QuiesceMet

/-- Each rotation order is an order of the six ports (R22, R94). -/
def State.OrdersArePermutations (s : State) : Prop :=
  s.table.walkOrder.Perm [0, 1, 2, 3, 4, 5] ∧ s.table.requestOrder.Perm [0, 1, 2, 3, 4, 5] ∧
  s.engine.rotation.Perm [0, 1, 2, 3, 4, 5]

/-- Every parameter lies in its range (R191). -/
def State.ParametersInRange (s : State) : Prop :=
  (1 ≤ s.config.parkLimit ∧ s.config.parkLimit ≤ 255) ∧
  (1 ≤ s.config.responseLimit ∧ s.config.responseLimit ≤ 1023) ∧
  s.config.retryLimit ≤ 15 ∧ ∀ p, s.config.ranks.get p ≤ 3

/-- The valid entries of a lookaside stand in its order of recent use, each once, and no two hold the same window
(R32). -/
def Lookaside.WellKept (l : Lookaside) : Prop :=
  l.order.Nodup ∧ (∀ i, i ∈ l.order ↔ l.entries.get i ≠ none) ∧
  ∀ i j c d, l.entries.get i = some c → l.entries.get j = some d → c.window = d.window → i = j

def State.LookasidesWellKept (s : State) : Prop := ∀ p, (s.port p).lookaside.WellKept

/-- A walk that stands first on its channel has reached the request arbiter, unless another of its port waits there
(R46, R76). -/
def State.WalksReachArbiter (s : State) : Prop :=
  ∀ p h rest, s.toTable p = .walk h :: rest → s.waitingWalk p ≠ none

/-- What the port units, the arbiters and the configuration unit hold stays legal: rotation orders, parameters,
lookasides, and the walks at the request arbiter (R22, R32, R76, R94, R191). -/
def State.UnitsLegal (s : State) : Prop :=
  s.OrdersArePermutations ∧ s.ParametersInRange ∧ s.LookasidesWellKept ∧ s.WalksReachArbiter

/-- A part is presented exactly while the response timer runs, and exactly while a port access or a store entry holds the
bus; the record is then that holder's and the part its next one, and the grant line is asserted exactly while the
external master holds the bus, which it then requests (R94, R101, R106, R116). -/
def State.HolderHasThePart (s : State) : Prop :=
  match s.engine.holder with
  | .free => s.engine.part = none ∧ s.engine.timer = none ∧ s.engine.extGrant = false
  | .external => s.engine.part = none ∧ s.engine.timer = none ∧ s.engine.extGrant = true ∧ s.engine.extRequest = true
  | .portAccess p => s.engine.timer ≠ none ∧ s.engine.extGrant = false ∧
      ∃ r, s.engine.access = some r ∧ s.engine.part = some (partAt r r.partsDone) ∧ r.origin = p ∧ r.fromStore = false
  | .storeEntry p => s.engine.timer ≠ none ∧ s.engine.extGrant = false ∧
      ∃ r, s.engine.access = some r ∧ s.engine.part = some (partAt r r.partsDone) ∧ r.origin = p ∧ r.fromStore = true

/-- The bus access record is of work under way: a store entry is a write; a port access that is not abandoned is its port's
current access, ON_BUS; an abandoned one has its part in progress (R94, R101, R114, R126). -/
def State.RecordHasItsWork (s : State) : Prop :=
  ∀ r, s.engine.access = some r →
    (r.fromStore = true → r.kind = .write) ∧
    (r.fromStore = false → r.abandoned = false → ∃ a adm, (s.port r.origin).current = .onBus a adm) ∧
    (r.abandoned = true → s.engine.part ≠ none)

/-- Each port on the waiting list stands there once, and waits with a posted write that was offered (R122). -/
def State.WaitersWait (s : State) : Prop :=
  s.engine.waitingList.Nodup ∧
  ∀ p ∈ s.engine.waitingList, ∃ a adm, (s.port p).current = .waiting a adm true ∧ adm.posted = true

/-- The engine's holder, record, part, response timer, grant line and waiting list agree with each other and with the
stages of the current accesses. -/
def State.BusConsistent (s : State) : Prop := s.HolderHasThePart ∧ s.RecordHasItsWork ∧ s.WaitersWait

/-- A state that an event leaves: every event keeps each of these laws. -/
def State.IsKept (law : State → Prop) : Prop := ∀ s t, law s → step s = .next t → law t

end Sys2Proof.Machine
end

