-- ==== Sys2Proof/Certificates/Slice0/Obligations.lean ====
section
/-! DEFINITION. Statements about the part, for the provers: each formalises rules of spec/ over every state that meets its
hypotheses. OBLIGATIONS.json lists them with the rules they rest on. -/

open Sys2Proof Sys2Proof.Machine

/-! ### The machine -/

/-- A step takes the command at the front of the queue: it is exec of that command on the state with the queue's rest. -/
def Obligations.StepRunsTheFrontCommand : Prop :=
  ∀ (c : Instr) (rest : List Instr) (s : State), s.pending = c :: rest →
    step s = exec c { s with pending := rest }

/-- Every command has an outcome in which the part goes on, whatever the state. That a command whose occasion is absent goes
on at all is the model's choice, since the manual states no effect for it (notes/assumptions/2.md); so is the queue of
waiting commands, which no command touches (notes/assumptions/17.md). -/
def Obligations.EveryCommandGoesOn : Prop :=
  ∀ (c : Instr) (s : State), ∃ t, exec c s = .next t ∧ t.pending = s.pending

/-- With no command waiting a tick passes (the model's choice, notes/assumptions/4.md): every running timer counts it, a
timer loaded with n expires at the (n+1)th tick after its start (R115), and the ports in the retry waiters leave at the
next tick (R96). Nothing else changes. An expiry command before its tick changes nothing (notes/assumptions/4.md). -/
def Obligations.TickCountsTimers : Prop :=
  ∀ s : State,
    (s.pending = [] → ∃ t, step s = .next t ∧
      t.links = s.links ∧ t.table = s.table ∧ t.monitor = s.monitor ∧ t.config = s.config ∧
      t.engine = { s.engine with timer := t.engine.timer, retryTick := decide (s.engine.retryWaiters ≠ []) } ∧
      (∀ n k, s.engine.timer = some { limit := n, ticks := k } →
        t.engine.timer = some { limit := n, ticks := k + 1 } ∧ (.responseTimerExpiry ∈ t.pending ↔ n ≤ k)) ∧
      (s.engine.timer = none → t.engine.timer = none ∧ .responseTimerExpiry ∉ t.pending) ∧
      (.retryWaitExpiry ∈ t.pending ↔ s.engine.retryWaiters ≠ []) ∧
      ∀ p,
        (∀ a w n k, (s.port p).current = .parked a w { limit := n, ticks := k } →
          t.port p = { s.port p with current := .parked a w { limit := n, ticks := k + 1 } } ∧
          (.parkTimerExpiry p ∈ t.pending ↔ n ≤ k)) ∧
        ((∀ a w x, (s.port p).current ≠ .parked a w x) → t.port p = s.port p ∧ .parkTimerExpiry p ∉ t.pending)) ∧
    (¬ s.TimerRanOut → exec .responseTimerExpiry s = .next s) ∧
    (s.engine.retryTick = false → exec .retryWaitExpiry s = .next s) ∧
    ∀ p, (∀ a w n k, (s.port p).current = .parked a w { limit := n, ticks := k } → k ≤ n) →
      exec (.parkTimerExpiry p) s = .next s

/-! ### Arrival (Section 2) and the command slot (10.1) -/

/-- An access that the port state refuses, or that arrives while the reset input is asserted, is answered ERROR, recorded
nowhere, and changes nothing else (R28, R173); so are the writes to a slot that cannot be reached. -/
def Obligations.RefusedAtArrival : Prop :=
  ∀ (s : State) (p : PortId), (s.port p).current = .idle →
    let refused : State := { s with ports := vput s.ports p { s.port p with answer := some .error } }
    (∀ a : Access,
      ((s.port p).resetInput = true ∨ (s.port p).state = .offline ∨
        (((s.port p).state = .fenced ∨ (s.port p).state = .quiescing) ∧ ¬ a.IsApertureWord)) →
      exec (.accessArrival p a) s = .next refused) ∧
    ((s.port p).resetInput = true ∨ (s.port p).state = .offline →
      (∀ w v, exec (.registerWrite p w v) s = .next refused) ∧ exec (.acknowledge p) s = .next refused)

/-- At an ACTIVE port, a misaligned access is a match fault of kind ALIGN, a linked kind in the aperture is answered
ERROR unrecorded, and a hit on a copy whose checks fail is a match fault of the first failing check's kind that still
makes the entry the most recently used (R29 to R31, R33). -/
def Obligations.MatchFaultAtArrival : Prop :=
  ∀ (s : State) (p : PortId) (a : Access), s.Ready p → (s.port p).state = .active →
    let error : PortUnit := { s.port p with answer := some .error }
    (a.Misaligned → exec (.accessArrival p a) s =
      .next { s with ports := vput s.ports p (error.offered (matchFaultOf a .align none)) }) ∧
    (¬ a.Misaligned → 0xFFFFF000 ≤ a.addr.toNat → (a.kind = .linkedRead ∨ a.kind = .conditionalWrite) →
      exec (.accessArrival p a) s = .next { s with ports := vput s.ports p error }) ∧
    (¬ a.Misaligned → a.addr.toNat < 0xFFFFF000 → ∀ i c k, (s.port p).lookaside.Hits a.addr i c →
      firstFailure c.terms c.right a.toAccessHead = some k →
      let hit : PortUnit := { error with lookaside := (s.port p).lookaside.recent i }
      exec (.accessArrival p a) s =
        .next { s with ports := vput s.ports p (hit.offered (matchFaultOf a k (some c.window))) })

/-- At an ACTIVE port, an access that hits a copy and passes its checks is admitted: it moves to WAITING, not yet
offered, under the copy's window, epoch, width, linkable field and translation; an addition naming the copy's window
and epoch is sent; a linked read drops the port's reservation, through a stale copy too (R33, R34, R136; that R85's
words on stale copies leave this drop is the model's reading, notes/assumptions/26.md). At an ACTIVE port, an access
that misses goes to WALKING; its walk is sent, or waits unsent while the stale-walk flag is set (R33, R37). -/
def Obligations.HitAdmitsAndMissWalks : Prop :=
  (∀ (s : State) (p : PortId) (a : Access) (i : Fin 4) (c : Copy), s.Ready p → (s.port p).state = .active →
     ¬ a.Misaligned → a.addr.toNat < 0xFFFFF000 → (s.port p).lookaside.Hits a.addr i c →
     firstFailure c.terms c.right a.toAccessHead = none →
     ∃ t, exec (.accessArrival p a) s = .next t ∧ s.Sends t p [.addition c.window c.epoch] ∧
       t = { s with
         ports := vput s.ports p { s.port p with
           lookaside := (s.port p).lookaside.recent i
           current := .waiting a (admissionOf c a) false
           answer := none }
         monitor := { s.monitor with
           reservations :=
             if a.kind = .linkedRead then vput s.monitor.reservations p none else s.monitor.reservations }
         links := { s.links with toTable := t.links.toTable }
         table := { s.table with walks := t.table.walks } }) ∧
  (∀ (s : State) (p : PortId) (a : Access), s.Ready p → (s.port p).state = .active →
     ¬ a.Misaligned → a.addr.toNat < 0xFFFFF000 → (s.port p).lookaside.Misses a.addr →
     ((s.port p).staleWalk = false → ∃ t, exec (.accessArrival p a) s = .next t ∧
       s.Sends t p [.walk a.toAccessHead] ∧
       t = { s with
         ports := vput s.ports p { s.port p with current := .walking a true, answer := none }
         links := { s.links with toTable := t.links.toTable }
         table := { s.table with walks := t.table.walks } }) ∧
     ((s.port p).staleWalk = true → exec (.accessArrival p a) s =
       .next { s with ports := vput s.ports p { s.port p with current := .walking a false, answer := none } }))

/-- The staging words store what is written, in every slot state; a write to a read-only word has no effect; each is
answered DONE (R178). What a READ of each slot word returns, in the event of its arrival and with nothing else
changed, and that there is no word above 040h (R178, R184). -/
def Obligations.SlotWordsStoreAndReadBack : Prop :=
  (∀ (s : State) (p : PortId) (w : PlainWord) (v : Word), s.SlotOpen p →
     ∃ sl : Slot, exec (.registerWrite p w v) s =
         .next { s with ports := vput s.ports p { s.port p with slot := sl, answer := some (.done none) } } ∧
       (w = .request → sl = { (s.port p).slot with request := v }) ∧
       (∀ k, w = .param k → sl = { (s.port p).slot with params := vput (s.port p).slot.params k v }) ∧
       (w ≠ .request → (∀ k, w ≠ .param k) → sl = (s.port p).slot)) ∧
  (∀ (s : State) (p : PortId) (a : Access), s.SlotOpen p → a.size = .four →
     let u := s.port p
     let answers (x : Answer) : Prop :=
       exec (.accessArrival p a) s = .next { s with ports := vput s.ports p { u with answer := some x } }
     let reads (offset : Nat) (v : Word) : Prop := a.kind = .read → a.addr.toNat = 0xFFFFF000 + offset →
       answers (.done (some (Vector.ofFn fun i => some (v.extractLsb' (8 * i.val) 8))))
     reads 0x000 u.slot.request ∧
     (∀ k : Fin 6, reads (0x004 + 4 * k.val) (u.slot.params.get k)) ∧
     reads 0x01C (BitVec.ofNat 32 (p.val + if u.role = .supervisor then 256 else 0)) ∧
     reads 0x020 0 ∧
     reads 0x024 (BitVec.ofNat 32
       ((match u.slot.state with | .idle => 0 | .pending => 1 | .complete => 2) + if u.slot.overrun then 256 else 0)) ∧
     reads 0x028 u.slot.result ∧
     (∀ k : Fin 5, reads (0x02C + 4 * k.val) (u.slot.resultWords.get k)) ∧
     reads 0x040 0 ∧
     ((a.kind = .read ∨ a.kind = .write) → a.addr.toNat % 4 = 0 → 0xFFFFF044 ≤ a.addr.toNat → answers .error))

/-- A WRITE to ISSUE: in IDLE the slot captures the staged request under the next number and refuses it itself, sends it,
or holds it behind the stale-request flag; in any other slot state the write is dropped and overrun is set (R175, R179).
What is sent or held takes the place of a request of the port still untaken or still held, were there one: the model's
choice, notes/assumptions/28.md.
The REQUEST word carries the expected generation in bits 15 to 0, the target in bits 22 to 16, ANY in bit 23 and the kind
code in bits 28 to 24; codes 1 to 17 name the requests and the others none (R183). -/
def Obligations.IssueCapturesTheRequest : Prop :=
  ∀ (s : State) (p : PortId) (a : Access), s.SlotOpen p → a.kind = .write → a.size = .four →
    a.addr.toNat = 0xFFFFF020 →
    let u := s.port p
    let captured : Captured := { number := u.slot.number + 1, request := u.slot.request, params := u.slot.params }
    let taken : Slot := { u.slot with
      state := .pending, overrun := false, number := u.slot.number + 1, result := 0, resultWords := vfill 5 0 }
    let leaves (sl : Slot) : State :=
      { s with ports := vput s.ports p { u with slot := sl, answer := some (.done none) } }
    let outsidePorts (k : RequestKind) : Prop :=
      k ∈ [.portOnline, .portOffline, .fence, .unfence, .clearFault, .queryPort] ∧ 6 ≤ captured.target
    (captured.expected = u.slot.request.extractLsb' 0 16 ∧
      captured.target = (u.slot.request.extractLsb' 16 7).toNat ∧
      captured.any = u.slot.request.getLsbD 23 ∧
      ∀ k, captured.kind = some k ↔ requestKinds[(u.slot.request.extractLsb' 24 5).toNat]? = some (some k)) ∧
    (u.slot.state ≠ .idle → exec (.accessArrival p a) s = .next (leaves { u.slot with overrun := true })) ∧
    (u.slot.state = .idle →
      (captured.kind = none → exec (.accessArrival p a) s =
        .next (leaves (taken.given captured.number (plainResult .invalid none)))) ∧
      ∀ k, captured.kind = some k →
        (outsidePorts k → exec (.accessArrival p a) s =
          .next (leaves (taken.given captured.number (plainResult .noSuch none)))) ∧
        (¬ outsidePorts k → u.staleRequest = true →
          exec (.accessArrival p a) s = .next (leaves { taken with held := some captured })) ∧
        (¬ outsidePorts k → u.staleRequest = false → exec (.accessArrival p a) s =
          .next { leaves taken with
            links := { s.links with requests := vput s.links.requests p (some captured) } }))

/-- A result is taken exactly by a slot that is PENDING with its number, which becomes COMPLETE and asserts DONE;
RESULT then holds the code in bits 7 to 0, the generation-present bit 8 and the generation in bits 31 to 16 (R180,
R184). Any other slot discards it. A WRITE to ACKNOWLEDGE in COMPLETE returns the slot to IDLE and releases DONE, the
result staying readable and overrun as it stands; in any other slot state it is ignored (R180). -/
def Obligations.ResultsAreTakenAndAcknowledged : Prop :=
  (∀ (s : State) (p : PortId) (n : RequestNumber) (r : Result),
     ((s.port p).slot.state = .pending → (s.port p).slot.number = n →
       ∃ v : Word, exec (.resultTaken p n r) s =
           .next { s with ports := vput s.ports p { s.port p with
             slot := { (s.port p).slot with
               state := .complete, result := v, resultWords := r.words, doneLine := true } } } ∧
         [none, some .done, some .cancelled, some .busy, some .stale, some .state, some .overlap, some .invalid,
           some .denied, some .self, some .noSuch][(v.extractLsb' 0 8).toNat]? = some (some r.code) ∧
         (v.getLsbD 8 = r.generation.isSome) ∧ v.extractLsb' 9 7 = 0 ∧ v.extractLsb' 16 16 = r.generation.getD 0) ∧
     (((s.port p).slot.state ≠ .pending ∨ (s.port p).slot.number ≠ n) → exec (.resultTaken p n r) s = .next s)) ∧
  (∀ (s : State) (p : PortId), s.SlotOpen p →
     let leaves (sl : Slot) : State :=
       { s with ports := vput s.ports p { s.port p with slot := sl, answer := some (.done none) } }
     ((s.port p).slot.state = .complete →
       exec (.acknowledge p) s = .next (leaves { (s.port p).slot with state := .idle, doneLine := false })) ∧
     ((s.port p).slot.state ≠ .complete → exec (.acknowledge p) s = .next (leaves (s.port p).slot)))

/-! ### Walks and their answers (1.7, 1.8, 2.5, 2.6) -/

/-- The table takes the walk that its rotation order chooses and answers it from its records as they stand: NONE where no
window matches, PARK for a HELD window, DENY with the first failing check's kind, or ADMIT, which adds one to the
current epoch's count (R20 to R22). Where that count is 23, which R12 says it never exceeds, the walk waits: that it is
the walk that waits is the model's choice, notes/assumptions/27.md. -/
def Obligations.WalkIsAnsweredFromTheRecords : Prop :=
  ∀ (s : State) (p : PortId) (h : AccessHead), s.ChoosesWalk p h →
    let answered (m : TableMessage) (records : Vector WindowRecord 64) : Prop :=
      ∃ t, exec .walk s = .next t ∧
        t = { s with
          links := { s.links with
            toTable := t.links.toTable
            toPort := vput s.links.toPort p (s.toPort p ++ [m]) }
          table := { s.table with
            records := records
            walks := t.table.walks
            walkOrder := servedOrder s.table.walkOrder p } } ∧
        t.sentBy p = s.toTable p ∧ ∀ q, q ≠ p → t.toTable q = s.toTable q ∧ t.waitingWalk q = s.waitingWalk q
    ((∀ w, ¬ s.Matches p h.addr w) → answered .noWindow s.table.records) ∧
    ∀ w b, s.Matches p h.addr w → (∀ v, s.Matches p h.addr v → v = w) → (s.record w).body = some b →
      let copy := copyOf w (s.record w).generation b p
      (b.phase = .held → answered (.park w) s.table.records) ∧
      (b.phase = .live → ∀ k, firstFailure b.terms (b.rights.get p) h = some k →
        answered (.denied copy k) s.table.records) ∧
      (b.phase = .live → firstFailure b.terms (b.rights.get p) h = none →
        (b.counts.get b.epoch < 23 → answered (.admitted copy) (vput s.table.records w
          { s.record w with body := some (b.withCount b.epoch (b.counts.get b.epoch + 1)) })) ∧
        (23 ≤ b.counts.get b.epoch → exec .walk s = .next s))

/-- A port that takes an ADMIT answer for its walking access installs the copy, moves the access to WAITING under the
copy's terms and offers it: a non-posted access waits for the bus that another holds; a posted write enters the store and
is answered DONE, or joins the waiting list where the store has no room, whether the bus is free or not (R38, R120 to
R122, R136). FreeBusTakesTheNewCandidate says what a free bus does with an access or an entry so offered. -/
def Obligations.AdmitAnswerOffersTheAccess : Prop :=
  ∀ (s : State) (p : PortId) (c : Copy) (rest : List TableMessage) (a : Access),
    s.toPort p = .admitted c :: rest → (s.port p).current = .walking a true → (s.port p).staleWalk = false →
    let adm := admissionOf c a
    s.engine.holder ≠ .free ∨ (adm.posted = true ∧ ¬ s.HasRoom p) →
    let u : PortUnit := { s.port p with lookaside := (s.port p).lookaside.install c }
    let base : State := { s with
      links := { s.links with toPort := vput s.links.toPort p rest }
      monitor := { s.monitor with
        reservations := if a.kind = .linkedRead then vput s.monitor.reservations p none else s.monitor.reservations } }
    (adm.posted = false → exec (.admitAnswer p) s =
      .next { base with ports := vput s.ports p { u with current := .waiting a adm true } }) ∧
    (adm.posted = true → s.HasRoom p → exec (.admitAnswer p) s =
      .next { base with
        ports := vput s.ports p
          { u with current := .idle, answer := some (.done none), occupancyCopy := u.occupancyCopy + 1 }
        engine := { s.engine with store := s.engine.store ++ [entryOf p (s.port p).epoch a adm] } }) ∧
    (adm.posted = true → ¬ s.HasRoom p → exec (.admitAnswer p) s =
      .next { base with
        ports := vput s.ports p { u with current := .waiting a adm true }
        engine := { s.engine with waitingList := s.engine.waitingList ++ [p] } })

/-- A copy is installed on the entry that holds its window, else on the lowest-numbered invalid entry, else on the least
recently used one; it becomes the most recently used, and the other entries and their relative order are kept (R35). -/
def Obligations.CopyIsPlacedByTheReplacementRule : Prop :=
  ∀ (s : State) (p : PortId) (c : Copy), (s.port p).lookaside.WellKept →
    let l := (s.port p).lookaside
    let placed (i : Fin 4) : Prop :=
      l.install c = { entries := vput l.entries i (some c), order := i :: l.order.filter fun j => j ≠ i } ∧
      (l.install c).WellKept
    (∀ i d, l.entries.get i = some d → d.window = c.window → placed i) ∧
    ((∀ i d, l.entries.get i = some d → d.window ≠ c.window) →
      (∀ i, l.entries.get i = none → (∀ j, j < i → l.entries.get j ≠ none) → placed i) ∧
      ((∀ i, l.entries.get i ≠ none) → ∀ i before, l.order = before ++ [i] → placed i))

/-- A port that takes a DENY, NONE or PARK answer for its walking access: DENY installs the copy and is a match fault of
its kind, NONE is a match fault NO_WINDOW and installs nothing, PARK parks the access with the park timer loaded with the
park limit as it stands (R39 to R41). -/
def Obligations.RefusingAndParkingAnswers : Prop :=
  ∀ (s : State) (p : PortId) (rest : List TableMessage) (a : Access),
    (s.port p).current = .walking a true → (s.port p).staleWalk = false →
    let leaves (u : PortUnit) : State := { s with
      ports := vput s.ports p u, links := { s.links with toPort := vput s.links.toPort p rest } }
    (∀ c k, s.toPort p = .denied c k :: rest → s.KeepsState p → exec (.denyAnswer p) s =
      .next (leaves ((PortUnit.answered { s.port p with lookaside := (s.port p).lookaside.install c }
        .error).offered (matchFaultOf a k (some c.window))))) ∧
    (s.toPort p = .noWindow :: rest → s.KeepsState p → exec (.noneAnswer p) s =
      .next (leaves (((s.port p).answered .error).offered (matchFaultOf a .noWindow none)))) ∧
    (∀ w, s.toPort p = .park w :: rest → exec (.parkAnswer p) s =
      .next (leaves { s.port p with current := .parked a w { limit := s.config.parkLimit, ticks := 0 } }))

/-- A walk answer taken while the stale-walk flag is set is discarded: the flag clears, a walk held unsent behind it is
sent, and a discarded ADMIT is subtracted; the lookaside, the fault record and every answer stay as they are (R45). That
the held walk goes ahead of the subtraction is the model's reading, notes/assumptions/6.md. -/
def Obligations.StaleAnswerIsDiscarded : Prop :=
  ∀ (s : State) (p : PortId) (m : TableMessage) (rest : List TableMessage), s.toPort p = m :: rest →
    (s.port p).staleWalk = true →
    let held (u : PortUnit) : PortUnit :=
      { u with
        staleWalk := false
        current := match u.current with | .walking a false => .walking a true | other => other }
    let sent : List PortMessage :=
      match (s.port p).current with | .walking a false => [.walk a.toAccessHead] | _ => []
    let discards (i : Instr) (more : List PortMessage) : Prop :=
      ∃ t, exec i s = .next t ∧ s.Sends t p (sent ++ more) ∧
        t = { s with
          ports := vput s.ports p (held (s.port p))
          links := { s.links with toTable := t.links.toTable, toPort := vput s.links.toPort p rest }
          table := { s.table with walks := t.table.walks } }
    (∀ c, m = .admitted c → discards (.admitAnswer p) [.subtraction c.window c.epoch]) ∧
    (∀ c k, m = .denied c k → discards (.denyAnswer p) []) ∧
    (m = .noWindow → discards (.noneAnswer p) []) ∧
    (∀ w, m = .park w → discards (.parkAnswer p) [])

/-- A release notice for the window an access is parked on walks it again, its timer stopped; a retire notice for that
window, and the expiry of the park timer at its tick, answer it RETRY and return it to IDLE; a notice that finds nothing parked on
its window is ignored (R42, R43). -/
def Obligations.ParkEndsByNoticeOrTimer : Prop :=
  ∀ (s : State) (p : PortId) (w : WindowId) (rest : List TableMessage),
    let leaves (u : PortUnit) : State := { s with
      ports := vput s.ports p u, links := { s.links with toPort := vput s.links.toPort p rest } }
    (s.toPort p = .releaseNotice w :: rest →
      (∀ a x, (s.port p).current = .parked a w x → (s.port p).staleWalk = false →
        ∃ t, exec (.releaseNotice p) s = .next t ∧ s.Sends t p [.walk a.toAccessHead] ∧
          t = { leaves { s.port p with current := .walking a true } with
            links := { s.links with toTable := t.links.toTable, toPort := vput s.links.toPort p rest }
            table := { s.table with walks := t.table.walks } }) ∧
      ((∀ a x, (s.port p).current ≠ .parked a w x) →
        exec (.releaseNotice p) s = .next (leaves (s.port p)))) ∧
    (s.toPort p = .retireNotice w :: rest →
      (∀ a x, (s.port p).current = .parked a w x → s.KeepsState p →
        exec (.retireNotice p) s = .next (leaves ((s.port p).answered .retry))) ∧
      ((∀ a x, (s.port p).current ≠ .parked a w x) → exec (.retireNotice p) s = .next (leaves (s.port p)))) ∧
    (∀ a v n k, (s.port p).current = .parked a v { limit := n, ticks := k } → n < k → s.KeepsState p →
      exec (.parkTimerExpiry p) s = .next { s with ports := vput s.ports p ((s.port p).answered .retry) })

/-! ### Counts, acknowledgements and settlement (1.4, 1.5, 4.2 to 4.6) -/

/-- An addition raises the count of the window and epoch it names by one, whatever the record's state but FREE, and
the pending operation is evaluated; an access that does not wait to be offered stays as it is (R10, R14). In the event
in which the table takes an addition, the access of its port that waits to be offered is offered: a non-posted access
waits for the bus that another holds, and a posted write enters the store and is answered DONE or, whether the bus is
free or not, joins the waiting list where the store has no room (R34, R120 to R122). That it is the access the addition
was sent for is the model's reading, notes/assumptions/9.md. At a count of 23, which R12 says it never exceeds, the
addition waits in its channel: that it is the addition that waits is the model's choice, notes/assumptions/27.md. -/
def Obligations.AdditionCountsAndOffers : Prop :=
  (∀ (s : State) (p : PortId) (w : WindowId) (e : Epoch) (rest : List PortMessage) (b : WindowBody),
     s.toTable p = .addition w e :: rest → (s.record w).body = some b → 23 ≤ b.counts.get e →
     exec (.addition p) s = .next s) ∧
  (∀ (s : State) (p : PortId) (w : WindowId) (e : Epoch) (rest : List PortMessage) (b : WindowBody),
     s.toTable p = .addition w e :: rest → (s.record w).body = some b → b.counts.get e < 23 →
     (∀ a adm, (s.port p).current ≠ .waiting a adm false) →
     let g := (s.record w).generation
     let raised := b.withCount e (b.counts.get e + 1)
     ∃ t, exec (.addition p) s = .next t ∧ s.Takes t p (.addition w e) rest ∧
       t.port = Units.evaluated s.port g raised ∧
       t = { s with
         ports := t.ports
         links := { s.links with toTable := t.links.toTable }
         table := { s.table with
           records := vput s.table.records w (evaluatedRecord g raised), walks := t.table.walks } }) ∧
  (∀ (s : State) (p : PortId) (w : WindowId) (e : Epoch) (rest : List PortMessage) (b : WindowBody)
     (a : Access) (adm : Admission),
     s.toTable p = .addition w e :: rest → (s.record w).body = some b → b.counts.get e < 23 →
     (s.port p).current = .waiting a adm false →
     s.engine.holder ≠ .free ∨ (adm.posted = true ∧ ¬ s.HasRoom p) →
     let g := (s.record w).generation
     let raised := b.withCount e (b.counts.get e + 1)
     let units := Units.evaluated s.port g raised
     ∃ t, exec (.addition p) s = .next t ∧ s.Takes t p (.addition w e) rest ∧
       t = { s with
         ports := t.ports
         links := { s.links with toTable := t.links.toTable }
         table := { s.table with
           records := vput s.table.records w (evaluatedRecord g raised), walks := t.table.walks }
         engine := t.engine } ∧
       (adm.posted = false →
         t.engine = s.engine ∧ t.port = units.put p { units p with current := .waiting a adm true }) ∧
       (adm.posted = true → s.HasRoom p →
         t.engine = { s.engine with store := s.engine.store ++ [entryOf p (s.port p).epoch a adm] } ∧
         t.port = units.put p { units p with
           current := .idle, answer := some (.done none), occupancyCopy := (units p).occupancyCopy + 1 }) ∧
       (adm.posted = true → ¬ s.HasRoom p →
         t.engine = { s.engine with waitingList := s.engine.waitingList ++ [p] } ∧
         t.port = units.put p { units p with current := .waiting a adm true }))

/-- A subtraction, from a port or from the engine, lowers the count of the window and epoch it names, and the pending
operation is evaluated: an unsettled HOLD is marked settled, a RETIRE leaves the window FREE with its generation kept, a
REVISE is removed, each posting DONE with the generation, when its condition is met (R11, R14, R61, R68, R73). -/
def Obligations.SubtractionLowersTheCount : Prop :=
  ∀ (s : State) (w : WindowId) (e : Epoch) (b : WindowBody), (s.record w).body = some b →
    let g := (s.record w).generation
    let lowered := b.withCount e (b.counts.get e - 1)
    let records := vput s.table.records w (evaluatedRecord g lowered)
    (∀ p rest, s.toTable p = .subtraction w e :: rest →
      ∃ t, exec (.subtraction (.port p)) s = .next t ∧ s.Takes t p (.subtraction w e) rest ∧
        t.port = Units.evaluated s.port g lowered ∧
        t = { s with
          ports := t.ports
          links := { s.links with toTable := t.links.toTable }
          table := { s.table with records := records, walks := t.table.walks } }) ∧
    (∀ rest, s.links.engineToTable = (w, e) :: rest →
      ∃ t, exec (.subtraction .engine) s = .next t ∧
        t.port = Units.evaluated s.port g lowered ∧
        t = { s with
          ports := t.ports
          links := { s.links with engineToTable := rest }
          table := { s.table with records := records } })

/-- An acknowledgement that carries the set generation of a set its port is in removes the port, and the pending
operation is evaluated; any other leaves the set unchanged, and the table takes no further action on it (R79, R80). -/
def Obligations.AcknowledgementLeavesTheSet : Prop :=
  ∀ (s : State) (p : PortId) (w : WindowId) (g : Generation) (rest : List PortMessage),
    s.toTable p = .acknowledgement w g :: rest →
    ∃ t, exec (.acknowledgement p) s = .next t ∧ s.Takes t p (.acknowledgement w g) rest ∧
      t = { s with
        ports := t.ports
        links := { s.links with toTable := t.links.toTable }
        table := { s.table with records := t.table.records, walks := t.table.walks } } ∧
      (∀ b, (s.record w).body = some b → p ∈ b.shootSet → b.setGeneration = some g →
        t.table.records = vput s.table.records w (evaluatedRecord (s.record w).generation (b.withoutPort p)) ∧
        t.port = Units.evaluated s.port (s.record w).generation (b.withoutPort p)) ∧
      ((∀ b, (s.record w).body = some b → p ∉ b.shootSet ∨ b.setGeneration ≠ some g) →
        t.table.records = s.table.records ∧ t.ports = s.ports)

/-- An offline notice records the port OFFLINE in the table's view, removes it from every outstanding set and evaluates
the pending operation of every record whose set held it (in the order W0 to W63, notes/assumptions/16.md); an online
notice records it as not OFFLINE (R81, R82). -/
def Obligations.NoticesSetTheView : Prop :=
  ∀ (s : State) (p : PortId) (rest : List PortMessage),
    (s.toTable p = .offlineNotice :: rest →
      ∃ t, exec (.offlineNotice p) s = .next t ∧ s.Takes t p .offlineNotice rest ∧
        t = { s with
          ports := t.ports
          links := { s.links with toTable := t.links.toTable }
          table := { s.table with
            records := t.table.records
            walks := t.table.walks
            offlineView := vput s.table.offlineView p true } } ∧
        (∀ w, t.record w = match (s.record w).body with
          | none => s.record w
          | some b => if p ∈ b.shootSet then evaluatedRecord (s.record w).generation (b.withoutPort p)
            else s.record w) ∧
        t.port = (List.finRange 64).foldl (fun u w => match (s.record w).body with
          | none => u
          | some b => if p ∈ b.shootSet then Units.evaluated u (s.record w).generation (b.withoutPort p) else u) s.port) ∧
    (s.toTable p = .onlineNotice :: rest →
      ∃ t, exec (.onlineNotice p) s = .next t ∧ s.Takes t p .onlineNotice rest ∧
        t = { s with
          links := { s.links with toTable := t.links.toTable }
          table := { s.table with walks := t.table.walks, offlineView := vput s.table.offlineView p false } })

/-- A shoot-down makes invalid the entry that holds its window, if one does, keeps the others and their order, and is
acknowledged with the set generation it carried, whatever the port state and the stage (R36, R78). -/
def Obligations.ShootDownIsAcknowledged : Prop :=
  ∀ (s : State) (p : PortId) (w : WindowId) (g : Generation) (rest : List TableMessage),
    s.toPort p = .shootDown w g :: rest →
    ∃ t l, exec (.shootDown p) s = .next t ∧ s.Sends t p [.acknowledgement w g] ∧
      t = { s with
        ports := vput s.ports p { s.port p with lookaside := l }
        links := { s.links with toTable := t.links.toTable, toPort := vput s.links.toPort p rest }
        table := { s.table with walks := t.table.walks } } ∧
      (∀ i c, (s.port p).lookaside.entries.get i = some c →
        l.entries.get i = if c.window = w then none else some c) ∧
      (∀ i, (s.port p).lookaside.entries.get i = none → l.entries.get i = none) ∧
      l.order = (s.port p).lookaside.order.filter fun i =>
        ((s.port p).lookaside.entries.get i).all fun c => c.window ≠ w

/-! ### Window requests (Section 3, R187) -/

/-- The first step of the examination that fails gives the refusal: NO_SUCH, DENIED, STALE, then STATE or BUSY by the
table of R50. A refused request changes no window and sends nothing but its result, which carries the record's
generation (R49 to R51). -/
def Obligations.WindowRequestsAreExaminedInOrder : Prop :=
  ∀ (col : Nat) (kind : RequestKind) (command : Instr), windowRequests[col]? = some (kind, command) →
    ∀ (s : State) (i : PortId) (c : Captured), s.ChoosesRequest i c kind →
    let refused (code : ResultCode) (g : Option Generation) : Prop :=
      ∃ t, exec command s = .next t ∧
        t.port = (Units.told s.port i).given i c.number (plainResult code g) ∧
        t = { s with
          ports := t.ports
          links := { s.links with requests := s.requestsAfter i }
          table := { s.table with requestOrder := servedOrder s.table.requestOrder i } }
    (64 ≤ c.target → refused .noSuch none) ∧
    ∀ w : WindowId, c.target = w.val →
      ((s.port i).role ≠ .supervisor → refused .denied (some (s.record w).generation)) ∧
      ((s.port i).role = .supervisor → c.any = false → c.expected ≠ (s.record w).generation →
        refused .stale (some (s.record w).generation)) ∧
      (s.MayChange i c w → ∀ code, (conditionTable (s.record w).recordCondition)[col]? = some (some code) →
        refused code (some (s.record w).generation))

/-- A request that the record's condition accepts is refused INVALID where its fields are not valid, and OVERLAP where
the overlap check that it calls for fails; the record is left exactly as it was (R2, R18, R49, R51). -/
def Obligations.FieldAndOverlapRefusals : Prop :=
  ∀ (s : State) (i : PortId) (c : Captured) (w : WindowId), s.MayChange i c w →
    let refused (command : Instr) (code : ResultCode) : Prop :=
      ∃ t, exec command s = .next t ∧
        t.port = (Units.told s.port i).given i c.number (plainResult code (some (s.record w).generation)) ∧
        t = { s with
          ports := t.ports
          links := { s.links with requests := s.requestsAfter i }
          table := { s.table with requestOrder := servedOrder s.table.requestOrder i } }
    let is (x : RecordCondition) : Prop := (s.record w).recordCondition = x
    (s.ChoosesRequest i c .define → is .free → c.fieldSet = none → refused .define .invalid) ∧
    (s.ChoosesRequest i c .amend → is .staged ∨ is .heldSettled → c.fieldSet = none → refused .amend .invalid) ∧
    (s.ChoosesRequest i c .amend → is .heldSettled → ∀ t r, c.fieldSet = some (t, r) → s.Overlaps w t r →
      refused .amend .overlap) ∧
    (s.ChoosesRequest i c .setRights → is .liveOpen → decodeRights (c.params.get 3) = none →
      refused .setRights .invalid) ∧
    ∀ b, (s.record w).body = some b →
      (s.ChoosesRequest i c .enable → is .staged → s.Overlaps w b.terms b.rights → refused .enable .overlap) ∧
      (s.ChoosesRequest i c .release → is .heldSettled → s.Overlaps w b.terms b.rights →
        refused .release .overlap) ∧
      (s.ChoosesRequest i c .setRights → is .liveOpen → ∀ r, decodeRights (c.params.get 3) = some r →
        Gains b.rights r → s.Overlaps w b.terms r → refused .setRights .overlap)

/-- DEFINE on a FREE window with a valid field set makes it STAGED with those fields, epoch 0, zero counts, nothing
pending and an empty set; its generation rises by one and DONE is posted with it (R52, R54, R143). AMEND on a STAGED
window, or on a HELD one whose HOLD is settled where the overlap check of the new fields passes, replaces the fields
and keeps everything else of the record; its generation rises by one and DONE is posted with it (R55 to R57). ENABLE
on a STAGED window whose overlap check passes makes it LIVE, and its link epoch its epoch; its generation rises by one
and DONE is posted with it (R58, R143). -/
def Obligations.StagedWindowsAreMadeAndEnabled : Prop :=
  (∀ (s : State) (i : PortId) (c : Captured) (w : WindowId) (f : Terms) (r : Rights),
     s.ChoosesRequest i c .define → s.MayChange i c w → (s.record w).body = none → c.fieldSet = some (f, r) →
     let g := (s.record w).generation + 1
     ∃ t, exec .define s = .next t ∧
       t.port = (Units.told s.port i).given i c.number (plainResult .done (some g)) ∧
       t = { s with
         ports := t.ports
         links := { s.links with requests := s.requestsAfter i }
         table := { s.table with
           requestOrder := servedOrder s.table.requestOrder i
           records := vput s.table.records w
             { generation := g
               body := some
                 { phase := .staged, terms := f, rights := r, epoch := 0, counts := vfill 2 0, pendingOp := none,
                   shootSet := [], setGeneration := none } } }
         monitor := { s.monitor with linkEpoch := vput s.monitor.linkEpoch w none } }) ∧
  (∀ (s : State) (i : PortId) (c : Captured) (w : WindowId) (b : WindowBody) (f : Terms) (r : Rights),
     s.ChoosesRequest i c .amend → s.MayChange i c w → (s.record w).body = some b → c.fieldSet = some (f, r) →
     ((s.record w).recordCondition = .staged ∨
       ((s.record w).recordCondition = .heldSettled ∧ ¬ s.Overlaps w f r)) →
     let g := (s.record w).generation + 1
     ∃ t, exec .amend s = .next t ∧
       t.port = (Units.told s.port i).given i c.number (plainResult .done (some g)) ∧
       t = { s with
         ports := t.ports
         links := { s.links with requests := s.requestsAfter i }
         table := { s.table with
           requestOrder := servedOrder s.table.requestOrder i
           records := vput s.table.records w { generation := g, body := some { b with terms := f, rights := r } } }
         monitor := { s.monitor with linkEpoch := vput s.monitor.linkEpoch w none } }) ∧
  (∀ (s : State) (i : PortId) (c : Captured) (w : WindowId) (b : WindowBody),
     s.ChoosesRequest i c .enable → s.MayChange i c w → (s.record w).body = some b → b.phase = .staged →
     ¬ s.Overlaps w b.terms b.rights →
     let g := (s.record w).generation + 1
     ∃ t, exec .enable s = .next t ∧
       t.port = (Units.told s.port i).given i c.number (plainResult .done (some g)) ∧
       t = { s with
         ports := t.ports
         links := { s.links with requests := s.requestsAfter i }
         table := { s.table with
           requestOrder := servedOrder s.table.requestOrder i
           records := vput s.table.records w { generation := g, body := some { b with phase := .live } } }
         monitor := { s.monitor with linkEpoch := vput s.monitor.linkEpoch w (some b.epoch) } })

/-- HOLD on a LIVE window that is not blocked makes it HELD with an unsettled HOLD; the set becomes the ports not OFFLINE
in the table's view, with the new generation as its set generation, and each is sent a shoot-down; reservations naming
the window are broken; epoch and counts are kept; nothing is posted (R15, R53, R59, R80, R143). I0 is not OFFLINE in that
view, by PortZeroKeepsServing. -/
def Obligations.HoldFreezesTheWindow : Prop :=
  ∀ (s : State) (i : PortId) (c : Captured) (w : WindowId) (b : WindowBody),
    s.ChoosesRequest i c .hold → s.MayChange i c w → (s.record w).body = some b →
    (s.record w).recordCondition = .liveOpen → s.table.offlineView.get 0 = false →
    let g := (s.record w).generation + 1
    ∃ t, exec .hold s = .next t ∧ t.port = Units.told s.port i ∧
      t = { s with
        ports := t.ports
        links := { s.links with
          requests := s.requestsAfter i
          toPort := Vector.ofFn (s.notified (.shootDown w g)) }
        table := { s.table with
          requestOrder := servedOrder s.table.requestOrder i
          records := vput s.table.records w
            { generation := g
              body := some { b with
                phase := .held
                pendingOp := some (.hold i c.number false)
                shootSet := s.viewedOnline
                setGeneration := some g } } }
        monitor := { s.monitor with
          reservations := s.brokenFor w
          linkEpoch := vput s.monitor.linkEpoch w none } }

/-- RELEASE on a HELD window returns it to LIVE and removes its HOLD, keeping epoch, counts and set; an unsettled HOLD's
requester is posted CANCELLED, a settled HOLD calls for the overlap check; the generation rises by one, DONE is posted
with it, and release notices go to every port not OFFLINE (R52, R53, R63, R65, R143). A slot for which both results are
meant takes the DONE, even where their request numbers are the same: the model's reading, notes/assumptions/29.md. -/
def Obligations.ReleaseReturnsTheWindowToLive : Prop :=
  ∀ (s : State) (i : PortId) (c : Captured) (w : WindowId) (b : WindowBody) (q : PortId) (n : RequestNumber)
    (settled : Bool),
    s.ChoosesRequest i c .release → s.MayChange i c w → (s.record w).body = some b → b.phase = .held →
    b.pendingOp = some (.hold q n settled) → (settled = true → ¬ s.Overlaps w b.terms b.rights) →
    let g := (s.record w).generation + 1
    let told := Units.told s.port i
    let done := told.given i c.number (plainResult .done (some g))
    ∃ t, exec .release s = .next t ∧
      t.port = (if settled = false then done.given q n (plainResult .cancelled (some g)) else done) ∧
      t = { s with
        ports := t.ports
        links := { s.links with
          requests := s.requestsAfter i
          toPort := Vector.ofFn (s.notified (.releaseNotice w)) }
        table := { s.table with
          requestOrder := servedOrder s.table.requestOrder i
          records := vput s.table.records w
            { generation := g, body := some { b with phase := .live, pendingOp := none } } }
        monitor := { s.monitor with linkEpoch := vput s.monitor.linkEpoch w (some b.epoch) } }

/-- RETIRE makes a STAGED window, and a HELD window whose HOLD is settled, FREE at once, DONE being posted, the latter with
retire notices to every port not OFFLINE; it makes a LIVE window that is not blocked DRAINING with a pending RETIRE, its
set filled and shoot-downs sent, nothing being posted. Each raises the generation by one and breaks the reservations
naming the window (R52, R53, R66, R67, R69, R143). -/
def Obligations.RetireFreesOrDrainsTheWindow : Prop :=
  ∀ (s : State) (i : PortId) (c : Captured) (w : WindowId) (b : WindowBody),
    s.ChoosesRequest i c .retire → s.MayChange i c w → (s.record w).body = some b →
    let g := (s.record w).generation + 1
    let leaves (units : Units) (body : Option WindowBody) (toPort : Vector (List TableMessage) 6) : Prop :=
      ∃ t, exec .retire s = .next t ∧ t.port = units ∧
        t = { s with
          ports := t.ports
          links := { s.links with requests := s.requestsAfter i, toPort := toPort }
          table := { s.table with
            requestOrder := servedOrder s.table.requestOrder i
            records := vput s.table.records w { generation := g, body := body } }
          monitor := { s.monitor with
            reservations := s.brokenFor w
            linkEpoch := vput s.monitor.linkEpoch w none } }
    let done := (Units.told s.port i).given i c.number (plainResult .done (some g))
    ((s.record w).recordCondition = .staged → leaves done none s.links.toPort) ∧
    ((s.record w).recordCondition = .heldSettled → leaves done none (Vector.ofFn (s.notified (.retireNotice w)))) ∧
    ((s.record w).recordCondition = .liveOpen → s.table.offlineView.get 0 = false →
      leaves (Units.told s.port i)
        (some { b with
          phase := .draining
          pendingOp := some (.retire i c.number)
          shootSet := s.viewedOnline
          setGeneration := some g })
        (Vector.ofFn (s.notified (.shootDown w g))))

/-- SET_RIGHTS on a LIVE window that is not blocked installs the new rights with a pending REVISE, fills the set and sends
shoot-downs, nothing being posted; a revision that takes some right away is narrowing, flips the epoch, breaks the
reservations naming the window and sets its link epoch to the new epoch; a widening one leaves all of these (R9, R70 to
R72, R143). -/
def Obligations.SetRightsRevisesTheWindow : Prop :=
  ∀ (s : State) (i : PortId) (c : Captured) (w : WindowId) (b : WindowBody) (r : Rights),
    s.ChoosesRequest i c .setRights → s.MayChange i c w → (s.record w).body = some b →
    (s.record w).recordCondition = .liveOpen → decodeRights (c.params.get 3) = some r →
    (Gains b.rights r → ¬ s.Overlaps w b.terms r) → s.table.offlineView.get 0 = false →
    let g := (s.record w).generation + 1
    let leaves (epoch : Epoch) (narrowing : Bool) (monitor : Monitor) : Prop :=
      ∃ t, exec .setRights s = .next t ∧ t.port = Units.told s.port i ∧
        t = { s with
          ports := t.ports
          links := { s.links with
            requests := s.requestsAfter i
            toPort := Vector.ofFn (s.notified (.shootDown w g)) }
          table := { s.table with
            requestOrder := servedOrder s.table.requestOrder i
            records := vput s.table.records w
              { generation := g
                body := some { b with
                  rights := r
                  epoch := epoch
                  pendingOp := some (.revise i c.number narrowing)
                  shootSet := s.viewedOnline
                  setGeneration := some g } } }
          monitor := monitor }
    (Narrows b.rights r → ∀ e, e ≠ b.epoch → leaves e true { s.monitor with
      reservations := s.brokenFor w
      linkEpoch := vput s.monitor.linkEpoch w (some e) }) ∧
    (¬ Narrows b.rights r → leaves b.epoch false s.monitor)

/-- QUERY_WINDOW is refused NO_SUCH, DENIED and INVALID in that order, and otherwise posts DONE with the record's
generation and contents; it changes nothing else (R187). The contents say the window's state with either selector, and
nothing more for a FREE window; with selector 1 they hold its epoch, counts, pending operation with requester and
flags, outstanding set and set generation, each in its own bits; a count is shown where it is in its range of R1, 0 to 23
(R187), which RecordsKeepLegal says it keeps. -/
def Obligations.QueryWindowReportsTheRecord : Prop :=
  (∀ (s : State) (i : PortId) (c : Captured), s.ChoosesRequest i c .queryWindow →
     let posts (r : Result) : Prop :=
       ∃ t, exec .queryWindow s = .next t ∧
         t.port = (Units.told s.port i).given i c.number r ∧
         t = { s with
           ports := t.ports
           links := { s.links with requests := s.requestsAfter i }
           table := { s.table with requestOrder := servedOrder s.table.requestOrder i } }
     (64 ≤ c.target → posts (plainResult .noSuch none)) ∧
     ∀ w : WindowId, c.target = w.val →
       let g := some (s.record w).generation
       let permitted := (s.port i).role = .supervisor ∨
         ∃ b, (s.record w).body = some b ∧ (b.rights.get i = .read ∨ b.rights.get i = .readWrite)
       (¬ permitted → posts (plainResult .denied g)) ∧
       (permitted → 2 ≤ (c.params.get 0).toNat → posts (plainResult .invalid g)) ∧
       (permitted → (c.params.get 0).toNat < 2 →
         posts { code := .done, generation := g, words := windowWords (s.record w) (c.params.get 0).toNat })) ∧
  (∀ r : WindowRecord, (r.body = none → ∀ selector, windowWords r selector = vfill 5 0) ∧
     ∀ b, r.body = some b →
     (∀ selector, let head := (windowWords r selector).get 0
       [none, some WindowPhase.staged, some .live, some .held, some .draining][(head.extractLsb' 0 3).toNat]?
         = some (some b.phase) ∧ head.getLsbD 3 = true) ∧
     let q0 := (windowWords r 1).get 0
     let q1 := (windowWords r 1).get 1
     (q0.extractLsb' 4 1).toNat = b.epoch.val ∧
     (b.counts.get 0 ≤ 23 → (q0.extractLsb' 8 5).toNat = b.counts.get 0) ∧
     (b.counts.get 1 ≤ 23 → (q0.extractLsb' 16 5).toNat = b.counts.get 1) ∧
     ((q0.extractLsb' 24 2).toNat, (q0.extractLsb' 26 3).toNat, q0.getLsbD 29, q0.getLsbD 30)
       = (match b.pendingOp with
         | none => (0, 0, false, false)
         | some (.hold q _ settled) => (1, q.val, settled, false)
         | some (.retire q _) => (2, q.val, false, false)
         | some (.revise q _ narrowing) => (3, q.val, false, narrowing)) ∧
     (∀ p : PortId, q1.getLsbD p.val = true ↔ p ∈ b.shootSet) ∧
     q1.getLsbD 8 = b.setGeneration.isSome ∧ q1.extractLsb' 16 16 = b.setGeneration.getD 0)

/-- What DEFINE and AMEND carry in P0 to P3: a field set is taken exactly where every field encodes a permitted value
and the set is valid, and then it is what the words' fields say. What SET_RIGHTS carries in P3: a rights list is taken
exactly where each port's two bits encode a right, and then it is what they say (R2, R185). Q1 to Q4 of a QUERY_WINDOW
with selector 0, copied into P0 to P3, are the window's own field set (R185, R187). -/
def Obligations.FieldsAreCarriedInTheParameters : Prop :=
  (∀ (c : Captured) (t : Terms) (r : Rights),
     (∀ v : Word, decodeRights v = some r ↔
       ∀ p : PortId, [Right.noRight, .read, .readWrite][(v.extractLsb' (2 * p.val) 2).toNat]? = some (r.get p)) ∧
     (c.fieldSet = some (t, r) ↔
       (t.localBase = c.params.get 0 ∧
         t.targetBase = (c.params.get 2).extractLsb' 0 4 ++ c.params.get 1 ∧
         t.sizeCode.val = ((c.params.get 2).extractLsb' 8 5).toNat ∧
         t.fetch = (if (c.params.get 2).getLsbD 16 then .barred else .allowed) ∧
         t.level = (if (c.params.get 2).getLsbD 17 then .privileged else .any) ∧
         [Width.w8, .w16, .w32][((c.params.get 2).extractLsb' 18 2).toNat]? = some t.width ∧
         t.posting = (if (c.params.get 2).getLsbD 20 then .posted else .strict) ∧
         t.linkable = (c.params.get 2).getLsbD 21 ∧
         ∀ p : PortId, [Right.noRight, .read, .readWrite][((c.params.get 3).extractLsb' (2 * p.val) 2).toNat]?
           = some (r.get p)) ∧
       t.IsValid)) ∧
  (∀ (r : WindowRecord) (b : WindowBody) (c : Captured), r.body = some b → b.terms.IsValid →
     let q := windowWords r 0
     c.params.get 0 = q.get 1 → c.params.get 1 = q.get 2 → c.params.get 2 = q.get 3 → c.params.get 3 = q.get 4 →
     c.fieldSet = some (b.terms, b.rights))

/-! ### Port and device requests (Sections 8 to 10) -/

/-- Who may issue each port request and on what target: the first failing step of R156, R167, R168 and R188 gives the
refusal, posted without a generation; a refused request changes nothing at the target. -/
def Obligations.PortRequestsAreExaminedInOrder : Prop :=
  ∀ (s : State) (i q : PortId) (c : Captured), c.target = q.val →
    let supervisor := (s.port i).role = .supervisor
    let refuses (kind : RequestKind) (command : Instr) (code : ResultCode) : Prop := s.Asks i c kind →
      ∃ t, exec command s = .next t ∧
        t.port = (Units.told s.port i).given i c.number (plainResult code none) ∧
        t = { s with ports := t.ports, links := { s.links with requests := s.requestsAfter i } }
    (¬ supervisor →
      refuses .portOnline (.portOnline i) .denied ∧ refuses .portOffline (.portOffline i) .denied ∧
      refuses .fence (.fence i) .denied ∧ refuses .unfence (.unfence i) .denied ∧
      (q ≠ i → refuses .clearFault (.clearFault i) .denied ∧ refuses .queryPort (.queryPort i) .denied)) ∧
    (supervisor → q = i → refuses .portOffline (.portOffline i) .self ∧ refuses .fence (.fence i) .self) ∧
    (supervisor → q ≠ i → q = 0 → refuses .portOffline (.portOffline i) .denied) ∧
    (supervisor → q ≠ i → q ≠ 0 → (s.port q).state = .quiescing ∨ (s.port q).state = .offline →
      refuses .portOffline (.portOffline i) .state) ∧
    (supervisor → (s.port q).state ≠ .offline → refuses .portOnline (.portOnline i) .state) ∧
    (supervisor → q ≠ i → (s.port q).state ≠ .active → refuses .fence (.fence i) .state) ∧
    (supervisor → ((s.port q).state ≠ .fenced ∨ (s.port q).fault ≠ none) →
      refuses .unfence (.unfence i) .state) ∧
    (supervisor ∨ q = i → 6 ≤ (c.params.get 0).toNat → refuses .queryPort (.queryPort i) .invalid)

/-- PORT_ONLINE from a supervisor on an OFFLINE port makes it ACTIVE, sends its online notice, sets its permission
flag to YES and posts DONE (R146, R167). PORT_OFFLINE from a supervisor on another port than I0 that is ACTIVE or
FENCED makes it QUIESCING with the issuer as its offline requester, breaks its reservation and sets its permission
flag to NO, nothing being posted; where its current access is IDLE and its occupancy copy 0, it enters OFFLINE in the
same event, its offline notice is sent, its slot cleared, and DONE posted (R146, R169 to R171). -/
def Obligations.PortsGoOnlineAndOffline : Prop :=
  (∀ (s : State) (i q : PortId) (c : Captured), s.Asks i c .portOnline → c.target = q.val →
     (s.port i).role = .supervisor → (s.port q).state = .offline →
     ∃ t, exec (.portOnline i) s = .next t ∧ s.Sends t q [.onlineNotice] ∧
       t.port = (Units.put (Units.told s.port i) q
         { Units.told s.port i q with state := .active }).given i c.number (plainResult .done none) ∧
       t = { s with
         ports := t.ports
         links := { s.links with requests := s.requestsAfter i, toTable := t.links.toTable }
         table := { s.table with walks := t.table.walks }
         monitor := { s.monitor with permission := vput s.monitor.permission q true } }) ∧
  (∀ (s : State) (i q : PortId) (c : Captured), s.Asks i c .portOffline → c.target = q.val →
     (s.port i).role = .supervisor → q ≠ i → q ≠ 0 →
     ((s.port q).state = .active ∨ (s.port q).state = .fenced) →
     let units := Units.put (Units.told s.port i) q
       { s.port q with state := .quiescing, offlineRequester := some (i, c.number) }
     ∃ t, exec (.portOffline i) s = .next t ∧
       t = { s with
         ports := t.ports
         links := { s.links with requests := s.requestsAfter i, toTable := t.links.toTable }
         table := { s.table with walks := t.table.walks }
         monitor := { s.monitor with
           permission := vput s.monitor.permission q false
           reservations := vput s.monitor.reservations q none } } ∧
       (((s.port q).current ≠ .idle ∨ (s.port q).occupancyCopy ≠ 0) →
         t.port = units ∧ t.links.toTable = s.links.toTable ∧ t.table.walks = s.table.walks) ∧
       ((s.port q).current = .idle → (s.port q).occupancyCopy = 0 →
         s.Sends t q [.offlineNotice] ∧ t.port = units.wentOffline q (s.requestOf q).isSome))

/-- FENCE on another port that is ACTIVE makes it FENCED, UNFENCE on a FENCED port whose record is empty makes it
ACTIVE; each posts DONE and changes nothing else at the target (R157, R158). CLEAR_FAULT, from the target itself or a
supervisor, empties the target's fault record, zeroes its overflow count, releases FAULT, keeps the port state and
posts DONE, whatever the record and the state (R159). -/
def Obligations.FenceUnfenceAndClearFault : Prop :=
  (∀ (s : State) (i q : PortId) (c : Captured), c.target = q.val → (s.port i).role = .supervisor →
     let becomes (command : Instr) (state : PortState) : Prop := ∃ t, exec command s = .next t ∧
       t.port = (Units.put (Units.told s.port i) q
         { Units.told s.port i q with state := state }).given i c.number (plainResult .done none) ∧
       t = { s with ports := t.ports, links := { s.links with requests := s.requestsAfter i } }
     (s.Asks i c .fence → q ≠ i → (s.port q).state = .active → becomes (.fence i) .fenced) ∧
     (s.Asks i c .unfence → (s.port q).state = .fenced → (s.port q).fault = none → becomes (.unfence i) .active)) ∧
  (∀ (s : State) (i q : PortId) (c : Captured), s.Asks i c .clearFault → c.target = q.val →
     ((s.port i).role = .supervisor ∨ q = i) →
     ∃ t, exec (.clearFault i) s = .next t ∧
       t.port = (Units.put (Units.told s.port i) q
         { Units.told s.port i q with fault := none, overflow := 0, faultLine := false }).given i c.number
         (plainResult .done none) ∧
       t = { s with ports := t.ports, links := { s.links with requests := s.requestsAfter i } })

/-- QUERY_PORT, from the target itself or a supervisor, posts DONE with the target's state in selector 0, its fault record
and overflow count in selector 1, and lookaside entry k in selector k + 2, each in the bits of R188 and R189; it changes
nothing else. -/
def Obligations.QueryPortReportsTheUnit : Prop :=
  ∀ (s : State) (i q : PortId) (c : Captured), s.Asks i c .queryPort → c.target = q.val →
    ((s.port i).role = .supervisor ∨ q = i) → (c.params.get 0).toNat < 6 →
    ∃ t ws, exec (.queryPort i) s = .next t ∧
      t.port = (Units.told s.port i).given i c.number { code := .done, generation := none, words := ws } ∧
      t = { s with ports := t.ports, links := { s.links with requests := s.requestsAfter i } } ∧
      let u := Units.told s.port i q
      ((c.params.get 0).toNat = 0 →
        [PortState.offline, .active, .fenced, .quiescing][((ws.get 0).extractLsb' 0 2).toNat]? = some u.state ∧
        ((ws.get 0).getLsbD 2 = true ↔ u.role = .supervisor) ∧
        ((ws.get 0).extractLsb' 4 3).toNat
          = (match u.current with | .idle => 0 | .walking .. => 1 | .parked .. => 2 | .waiting .. => 3 | .onBus .. => 4) ∧
        ((s.engine.store.filter fun e => e.port = q).length ≤ 8 →
          ((ws.get 0).extractLsb' 8 4).toNat = (s.engine.store.filter fun e => e.port = q).length ∧
          (ws.get 0).extractLsb' 16 16 = u.epoch) ∧
        (s.reservation q = none → (ws.get 1).getLsbD 0 = false) ∧
        ∀ r, s.reservation q = some r → (ws.get 1).getLsbD 0 = true ∧
          ((ws.get 1).extractLsb' 8 6).toNat = r.window.val ∧
          (ws.get 3).extractLsb' 0 4 ++ ws.get 2 = r.granule) ∧
      ((c.params.get 0).toNat = 1 → ws = faultWords u.fault none u.overflow) ∧
      ∀ k : Fin 4, (c.params.get 0).toNat = k.val + 2 →
        ((ws.get 0).getLsbD 0 = true ↔ u.lookaside.entries.get k ≠ none) ∧
        ∀ d, u.lookaside.entries.get k = some d → u.lookaside.WellKept →
          u.lookaside.order[((ws.get 0).extractLsb' 1 2).toNat]? = some k ∧
          ((ws.get 0).extractLsb' 3 1).toNat = d.epoch.val ∧
          [Right.noRight, .read, .readWrite][((ws.get 0).extractLsb' 4 2).toNat]? = some d.right ∧
          ((ws.get 0).extractLsb' 8 6).toNat = d.window.val ∧ (ws.get 0).extractLsb' 16 16 = d.generation ∧
          ws.get 1 = d.terms.localBase ∧ (ws.get 3).extractLsb' 0 4 ++ ws.get 2 = d.terms.targetBase ∧
          ((ws.get 3).extractLsb' 8 5).toNat = d.terms.sizeCode.val ∧
          ((ws.get 3).getLsbD 16 = true ↔ d.terms.fetch = .barred) ∧
          ((ws.get 3).getLsbD 17 = true ↔ d.terms.level = .privileged) ∧
          [Width.w8, .w16, .w32][((ws.get 3).extractLsb' 18 2).toNat]? = some d.terms.width ∧
          ((ws.get 3).getLsbD 20 = true ↔ d.terms.posting = .posted) ∧ (ws.get 3).getLsbD 21 = d.terms.linkable

/-- A fault record in Q0 to Q4: each field in its bits, each present bit set exactly where its field is present, and the
overflow count in Q4 (R189). -/
def Obligations.FaultRecordLayout : Prop :=
  ∀ (f : FaultInfo) (origin : Option PortId) (overflow : Nat), overflow ≤ 255 →
    (∀ n m, f.parts = some (n, m) → n < 4 ∧ m < 8) →
    let q := faultWords (some f) origin overflow
    let q0 := q.get 0
    q0.getLsbD 0 = true ∧
    [none, some FaultKind.noWindow, some .denied, some .align, some .link, some .targetError, some .targetTimeout,
      some .retryExhausted][(q0.extractLsb' 1 3).toNat]? = some (some f.kind) ∧
    q0.getLsbD 4 = f.deferred ∧
    [AccessKind.read, .write, .linkedRead, .conditionalWrite][(q0.extractLsb' 5 2).toNat]? = some f.accessKind ∧
    [AccessSize.one, .two, .four][(q0.extractLsb' 7 2).toNat]? = some f.size ∧
    (q0.getLsbD 9 = true ↔ f.cls = .fetch) ∧ (q0.getLsbD 10 = true ↔ f.level = .privileged) ∧
    q0.getLsbD 11 = f.localAddr.isSome ∧ q0.getLsbD 12 = f.window.isSome ∧ q0.getLsbD 13 = f.sysAddr.isSome ∧
    q0.getLsbD 14 = f.parts.isSome ∧ q0.getLsbD 15 = origin.isSome ∧
    (∀ w, f.window = some w → (q0.extractLsb' 16 6).toNat = w.val) ∧
    (∀ n m, f.parts = some (n, m) → (q0.extractLsb' 22 2).toNat = n ∧ (q0.extractLsb' 24 3).toNat = m) ∧
    (∀ p, origin = some p → (q0.extractLsb' 27 3).toNat = p.val) ∧
    q.get 1 = f.localAddr.getD 0 ∧ (q.get 3).extractLsb' 0 4 ++ q.get 2 = f.sysAddr.getD 0 ∧
    (q.get 4).toNat = overflow ∧ ((faultWords none origin overflow).get 4).toNat = overflow ∧
    (faultWords none origin overflow).get 0 = 0

/-- SET_PARAM is examined for its selector, its issuer and its value in that order; accepted, it sets the parameter to the
value and posts DONE, and refused it leaves every parameter as it was; nothing else changes (R191, R192). -/
def Obligations.SetParamSetsTheParameter : Prop :=
  ∀ (s : State) (i : PortId) (c : Captured), s.Asks i c .setParam →
    let value := (c.params.get 0).toNat
    let replies (code : ResultCode) (config : ConfigUnit) : Prop := ∃ t, exec (.setParam i) s = .next t ∧
      t.port = (Units.told s.port i).given i c.number (plainResult code none) ∧
      t = { s with ports := t.ports, links := { s.links with requests := s.requestsAfter i }, config := config }
    let parameter (selector low high : Nat) (config : ConfigUnit) : Prop := c.target = selector →
      (low ≤ value ∧ value ≤ high → replies .done config) ∧
      (¬ (low ≤ value ∧ value ≤ high) → replies .invalid s.config)
    (9 ≤ c.target → replies .noSuch s.config) ∧
    (c.target < 9 → (s.port i).role ≠ .supervisor → replies .denied s.config) ∧
    ((s.port i).role = .supervisor →
      parameter 0 1 255 { s.config with parkLimit := value } ∧
      parameter 1 1 1023 { s.config with responseLimit := value } ∧
      parameter 2 0 15 { s.config with retryLimit := value } ∧
      ∀ p : PortId, parameter (3 + p.val) 0 3 { s.config with ranks := vput s.config.ranks p value })

/-- CLEAR_DEVICE_FAULT from a supervisor empties the device fault record, zeroes its overflow count, releases ALERT and posts
DONE, whether the record is occupied or empty; from any other port it is refused DENIED and changes nothing (R162). -/
def Obligations.ClearDeviceFaultEmptiesTheRecord : Prop :=
  ∀ (s : State) (i : PortId) (c : Captured), s.Asks i c .clearDeviceFault →
    let replies (code : ResultCode) (config : ConfigUnit) : Prop := ∃ t, exec (.clearDeviceFault i) s = .next t ∧
      t.port = (Units.told s.port i).given i c.number (plainResult code none) ∧
      t = { s with ports := t.ports, links := { s.links with requests := s.requestsAfter i }, config := config }
    ((s.port i).role = .supervisor →
      replies .done { s.config with fault := none, overflow := 0, alertLine := false }) ∧
    ((s.port i).role ≠ .supervisor → replies .denied s.config)

/-- QUERY_DEVICE is refused DENIED from a port that is not a supervisor and INVALID for a selector above 1; otherwise it
posts DONE with the parameters and the store, or with the device fault record, and changes nothing else (R190). -/
def Obligations.QueryDeviceReportsTheDevice : Prop :=
  ∀ (s : State) (i : PortId) (c : Captured), s.Asks i c .queryDevice →
    let posts (r : Result) : Prop := ∃ t, exec (.queryDevice i) s = .next t ∧
      t.port = (Units.told s.port i).given i c.number r ∧
      t = { s with ports := t.ports, links := { s.links with requests := s.requestsAfter i } }
    ((s.port i).role ≠ .supervisor → posts (plainResult .denied none)) ∧
    ((s.port i).role = .supervisor →
      (2 ≤ (c.params.get 0).toNat → posts (plainResult .invalid none)) ∧
      ((c.params.get 0).toNat = 1 → posts
        { code := .done
          generation := none
          words := faultWords (s.config.fault.map DeviceFault.info) (s.config.fault.map DeviceFault.origin)
            s.config.overflow }) ∧
      ((c.params.get 0).toNat = 0 → s.ParametersInRange → s.StoreWithinBounds → s.WaitersWait →
        ∃ ws : Vector Word 5, posts { code := .done, generation := none, words := ws } ∧
          ((ws.get 0).extractLsb' 0 8).toNat = s.config.parkLimit ∧
          ((ws.get 0).extractLsb' 8 4).toNat = s.config.retryLimit ∧
          ((ws.get 0).extractLsb' 16 10).toNat = s.config.responseLimit ∧
          ((ws.get 2).extractLsb' 0 5).toNat = s.engine.store.length ∧
          ((ws.get 2).extractLsb' 8 3).toNat = s.engine.waitingList.length ∧
          ∀ p : PortId, ((ws.get 1).extractLsb' (2 * p.val) 2).toNat = s.config.ranks.get p ∧
            ((ws.get 3).extractLsb' (4 * p.val) 4).toNat = (s.engine.store.filter fun e => e.port = p).length))

/-! ### The system bus (Sections 5 to 7) -/

/-- A part that ends ACK with parts remaining raises parts completed, in the record and in a store entry, places a read
part's bytes or reports a write part, and starts the next part at once with a fresh retry count, retry limit and response
timer; no choice is made (R104 to R107, R117, R126, R141). A termination that is not of the part presented, of a part that
has ended or been withdrawn, changes nothing, whether or not a later part is presented (R106, R110; that a termination
names its part by a number is the model's, notes/assumptions/25.md). -/
def Obligations.PartAckStartsTheNextPart : Prop :=
  ∀ (s : State) (lanes : Word),
    (∀ r, s.Presents r → r.partsDone + 1 < r.partsTotal →
      let part := partAt r r.partsDone
      let r' : BusAccess := { r with
        partsDone := r.partsDone + 1
        assembled := assembledWith r.assembled part lanes
        retryCount := 0
        retryLimit := s.config.retryLimit }
      ∃ t, exec (.partAck lanes s.engine.presented) s = .next t ∧
        t = { s with
          engine := { s.engine with
            access := some r'
            part := some (partAt r' (r.partsDone + 1))
            presented := s.engine.presented + 1
            timer := s.freshTimer
            store := t.engine.store }
          monitor := { s.monitor with
            reservations := if part.isWrite then s.brokenAt part.addr else s.monitor.reservations } } ∧
        (r.fromStore = false → t.engine.store = s.engine.store) ∧
        (r.fromStore = true → ∀ e before after, s.OldestEntry r.origin e before after →
          t.engine.store = before ++ { e with partsDone := r.partsDone + 1 } :: after)) ∧
    ∀ n, n ≠ s.engine.presented ∨ s.engine.part = none →
      exec (.partAck lanes n) s = .next s ∧ exec (.partErr n) s = .next s ∧ exec (.partRty n) s = .next s

/-- The last part of a non-posted access ends ACK: the port answers DONE, with the assembled data for a read, and is IDLE;
the engine sends one subtraction; a write breaks the reservations on its granule; a linked read sets its port's
reservation where the permission flag is YES and the link epoch is that of the access; the record is removed, the bus is
free, and the arbiter makes its choices among all that wait (R98, R107, R112, R113, R137, R141). The answer may complete
the port's own quiesce (R170), and the port's slot may take a DONE that another port's LINK_FAILED, completing a quiesce,
posts in the same event (R171). Where nothing else waits for the bus, nothing else changes. -/
def Obligations.PartAckFinishesTheAccess : Prop :=
  ∀ (s : State) (r : BusAccess) (lanes : Word) (a : Access) (adm : Admission), s.Presents r →
    r.partsTotal ≤ r.partsDone + 1 → r.fromStore = false → (s.port r.origin).current = .onBus a adm →
    let done := (s.port r.origin).answered (doneAnswer r lanes)
    let reservations := s.reservationsDone r
    ∃ u t, exec (.partAck lanes s.engine.presented) s = .next t ∧
      State.Becomes { s with monitor := { s.monitor with reservations := reservations } } r.origin done u ∧
      State.Chooses { u with
        links := { u.links with engineToTable := s.links.engineToTable ++ [(r.window, r.epoch)] }
        engine := s.engine.idled } t ∧
      (s.KeepsState r.origin → ∃ more,
        t.port r.origin = { done with slot := (t.port r.origin).slot } ∧
        t.links.engineToTable = s.links.engineToTable ++ (r.window, r.epoch) :: more ∧
        t.reservation r.origin = reservations.get r.origin ∧
        (∀ q, reservations.get q = none → t.reservation q = none) ∧
        t.engine.store = s.engine.store ∧
        (s.NoneElseWaits r.origin → s.NoEntry r.origin → more = [] ∧
          t = { s with
            ports := vput s.ports r.origin done
            links := { s.links with engineToTable := t.links.engineToTable }
            engine := s.engine.idled
            monitor := { s.monitor with reservations := reservations } }))

/-- The last part of a store entry ends ACK: the entry leaves the store, one subtraction and one entry-finished report are
sent, and the oldest waiting write that now fits is accepted and answered DONE. The record is removed, and the arbiter
makes its choices among what waits, which settles the event where no waiting write fits (R98, R119, R121, R123, R127,
R141). That the choices, and the subtractions of the LINK_FAILED writes among them, come before the entry's own
subtraction is the model's choice of an order for R127's list, notes/assumptions/5.md. -/
def Obligations.PartAckFinishesTheEntry : Prop :=
  ∀ (s : State) (r : BusAccess) (lanes : Word) (e : StoreEntry) (before after : List StoreEntry), s.Presents r →
    r.partsTotal ≤ r.partsDone + 1 → r.fromStore = true → r.kind = .write →
    s.OldestEntry r.origin e before after → s.WaitersWait →
    let left := before ++ after
    let fits (q : PortId) : Prop := left.length < 16 ∧ (left.filter fun d => d.port = q).length < 8
    ∃ t sent more, exec (.partAck lanes s.engine.presented) s = .next t ∧
      t.links.engineToTable = s.links.engineToTable ++ sent ++ (r.window, r.epoch) :: more ∧
      t.links.reports = vput s.links.reports r.origin (s.links.reports.get r.origin + 1) ∧
      ((∀ q ∈ s.engine.waitingList, ¬ fits q) →
        t.engine.store = left ∧ t.engine.waitingList = s.engine.waitingList ∧
        ∃ m, State.Chooses { s with
            engine := { s.engine.idled with store := left }
            monitor := { s.monitor with reservations := s.brokenAt (partAt r r.partsDone).addr } } m ∧
          t = { m with links := { m.links with
            engineToTable := m.links.engineToTable ++ [(r.window, r.epoch)], reports := t.links.reports } }) ∧
      (∀ q older younger a adm, s.engine.waitingList = older ++ q :: younger → (∀ x ∈ older, ¬ fits x) → fits q →
        (s.port q).current = .waiting a adm true →
        t.engine.store = left ++ [entryOf q (s.port q).epoch a adm] ∧
        t.engine.waitingList = s.engine.waitingList.filter (fun x => x ≠ q) ∧
        (t.port q).current = .idle ∧ (t.port q).answer = some (.done none) ∧
        (t.port q).occupancyCopy = (s.port q).occupancyCopy + 1) ∧
      (s.engine.extRequest = false → left = [] → s.engine.waitingList = [] → (∀ q a adm, ¬ s.OffersAccess q a adm) →
        t = { s with
          links := { s.links with
            engineToTable := s.links.engineToTable ++ [(r.window, r.epoch)]
            reports := t.links.reports }
          engine := { s.engine.idled with store := [] }
          monitor := { s.monitor with reservations := s.brokenAt (partAt r r.partsDone).addr } })

/-- A non-posted access fails when its part ends ERR, exceeds the retry limit or times out: the port answers ERROR, is IDLE,
and is offered the bus fault with the local address, the system address and, for a split access, its part counts; the
engine sends one subtraction; the port's reservation stays; the record is removed, the bus is free, and the arbiter makes
its choices among all that wait (R98, R108 to R112, R150, R151). The answer may complete the port's own quiesce (R170),
and the port's slot may take a DONE that another port's LINK_FAILED, completing a quiesce, posts in the same event (R171).
Where nothing else waits for the bus, nothing else changes. -/
def Obligations.FailedAccessAnswersError : Prop :=
  ∀ (s : State) (r : BusAccess) (i : Instr) (k : FaultKind) (a : Access) (adm : Admission), s.Presents r →
    s.EndsInFailure r i k → r.fromStore = false → (s.port r.origin).current = .onBus a adm →
    let failed := ((s.port r.origin).answered .error).offered (busFaultOf k r a)
    ∃ u t, exec i s = .next t ∧ s.Becomes r.origin failed u ∧
      State.Chooses { u with
        links := { u.links with engineToTable := s.links.engineToTable ++ [(r.window, r.epoch)] }
        engine := s.engine.idled } t ∧
      (s.KeepsState r.origin → ∃ more,
        t.port r.origin = { failed with slot := (t.port r.origin).slot } ∧
        t.links.engineToTable = s.links.engineToTable ++ (r.window, r.epoch) :: more ∧
        t.reservation r.origin = s.reservation r.origin ∧ t.engine.store = s.engine.store ∧
        t.config = s.config ∧
        (s.NoneElseWaits r.origin → s.NoEntry r.origin → more = [] ∧
          t = { s with
            ports := vput s.ports r.origin failed
            links := { s.links with engineToTable := t.links.engineToTable }
            engine := s.engine.idled }))

/-- A failed store entry forms a deferred fault without a local address and leaves the store. Where its port epoch is the
port's, the fault goes to the port fault record, an occupied one overflowing and fencing an ACTIVE port; where it differs,
the fault is orphaned to the device fault record with its origin port, and the port is unchanged. One subtraction and one
entry-finished report are sent, and the oldest waiting write that now fits is accepted. The record is removed, and the
arbiter makes its choices among what waits, which settles the event where no waiting write fits (R98, R123, R127 to R129,
R150 to R152, R161). That the choices, and the subtractions of the LINK_FAILED writes among them, come before the
entry's own subtraction is the model's choice of an order for R127's list, notes/assumptions/5.md. -/
def Obligations.FailedEntryIsRouted : Prop :=
  ∀ (s : State) (r : BusAccess) (i : Instr) (k : FaultKind) (e : StoreEntry) (before after : List StoreEntry),
    s.Presents r → s.EndsInFailure r i k → r.fromStore = true → s.OldestEntry r.origin e before after →
    let p := r.origin
    let f := deferredFaultOf k e r.partsTotal
    let routed : PortUnit := if e.portEpoch = (s.port p).epoch then (s.port p).offered f else s.port p
    let config : ConfigUnit :=
      if e.portEpoch = (s.port p).epoch then s.config
      else if s.config.fault = none then
        { s.config with fault := some { info := f, origin := p }, alertLine := true }
      else { s.config with overflow := min (s.config.overflow + 1) 255 }
    let left := before ++ after
    let fits (q : PortId) : Prop := left.length < 16 ∧ (left.filter fun d => d.port = q).length < 8
    ∃ t sent more, exec i s = .next t ∧ t.config = config ∧
      (t.port p).fault = routed.fault ∧ (t.port p).overflow = routed.overflow ∧
      (t.port p).faultLine = routed.faultLine ∧
      ((s.port p).state ≠ .quiescing → (t.port p).state = routed.state) ∧
      t.links.engineToTable = s.links.engineToTable ++ sent ++ (r.window, r.epoch) :: more ∧
      t.links.reports = vput s.links.reports p (s.links.reports.get p + 1) ∧
      (s.WaitersWait →
        ((∀ q ∈ s.engine.waitingList, ¬ fits q) →
          t.engine.store = left ∧ t.engine.waitingList = s.engine.waitingList ∧
          ∃ m, State.Chooses { s with
              ports := vput s.ports p routed, engine := { s.engine.idled with store := left }, config := config } m ∧
            t = { m with links := { m.links with
              engineToTable := m.links.engineToTable ++ [(r.window, r.epoch)], reports := t.links.reports } }) ∧
        ∀ q older younger a adm, s.engine.waitingList = older ++ q :: younger → (∀ x ∈ older, ¬ fits x) → fits q →
          (s.port q).current = .waiting a adm true →
          t.engine.store = left ++ [entryOf q (s.port q).epoch a adm] ∧
          t.engine.waitingList = s.engine.waitingList.filter (fun x => x ≠ q) ∧
          (t.port q).current = .idle ∧ (t.port q).answer = some (.done none) ∧
          (t.port q).occupancyCopy = (s.port q).occupancyCopy + 1) ∧
      (s.engine.extRequest = false → left = [] → s.engine.waitingList = [] →
        (∀ q a adm, ¬ s.OffersAccess q a adm) →
        t = { s with
          ports := vput s.ports p routed
          links := { s.links with
            engineToTable := s.links.engineToTable ++ [(r.window, r.epoch)]
            reports := t.links.reports }
          engine := { s.engine.idled with store := [] }
          config := config })

/-- A part that ends RTY within the retry limit releases the bus: the record is kept with its retry count raised, the port
enters the retry waiters, and only the external master can be granted meanwhile (R98, R99, R109, R116). At the next tick
the port leaves the waiters, the arbiter makes its choices at a bus that is free, and the part starts again with its retry
count and limit kept and the response timer fresh (R96, R101, R106); a conditional write, whose reservation is gone, is
examined again (R113, R139, R140). -/
def Obligations.RetriedPartStartsAgain : Prop :=
  ∀ (s : State) (r : BusAccess),
    (s.Presents r → r.retryCount + 1 ≤ r.retryLimit → exec (.partRty s.engine.presented) s =
      .next { s with engine := { s.engine with
        access := some { r with retryCount := r.retryCount + 1 }
        part := none
        timer := none
        holder := if s.engine.extRequest then .external else .free
        extGrant := s.engine.extRequest || s.engine.extGrant
        retryWaiters := s.engine.retryWaiters.filter (fun q => q ≠ r.origin) ++ [r.origin]
        retryTick := false } }) ∧
    (s.engine.retryTick = true →
      let released : Engine := { s.engine with retryWaiters := [], retryTick := false }
      (s.engine.holder ≠ .free → exec .retryWaitExpiry s = .next { s with engine := released }) ∧
      (s.engine.holder = .free →
        ∃ t, exec .retryWaitExpiry s = .next t ∧ State.Chooses { s with engine := released } t) ∧
      (s.engine.holder = .free → s.engine.extRequest = false → s.engine.access = some r → r.abandoned = false →
        r.origin ∈ s.engine.rotation →
        ((r.fromStore = true ∧ ¬ s.NoEntry r.origin) ∨
          (r.fromStore = false ∧ s.NoEntry r.origin ∧ ∃ a adm, (s.port r.origin).current = .onBus a adm)) →
        let again : Engine := { s.grantedEngine r.origin r with retryWaiters := [], retryTick := false }
        (r.kind ≠ .conditionalWrite → exec .retryWaitExpiry s = .next { s with engine := again }) ∧
        (r.kind = .conditionalWrite → s.HoldsGranule r.origin r.sysAddr → exec .retryWaitExpiry s =
          .next { s with
            engine := again
            monitor := { s.monitor with reservations := vput s.monitor.reservations r.origin none } }) ∧
        (r.kind = .conditionalWrite → ¬ s.HoldsGranule r.origin r.sysAddr → r.fromStore = false →
          s.KeepsState r.origin → s.engine.part = none → s.engine.timer = none → (∀ q, ¬ s.HasCandidate q) →
          exec .retryWaitExpiry s = .next { s with
            ports := vput s.ports r.origin ((s.port r.origin).answered .linkFailed)
            links := { s.links with engineToTable := s.links.engineToTable ++ [(r.window, r.epoch)] }
            engine := { s.engine.idled with
              retryWaiters := [], retryTick := false, rotation := servedOrder s.engine.rotation r.origin } })))

/-- The part of an access that a port reset abandoned runs to its ending; then, whatever the ending, one subtraction is sent,
the record is removed and the arbiter makes its choices among all that wait, with no answer and no fault for the access;
only a write part that ends ACK is reported (R98, R114, R117). Every fault record and FAULT line stays as it was, and the
only answers of the event are LINK_FAILED to conditional writes that the choices grant (R113). -/
def Obligations.AbandonedAccessEnds : Prop :=
  ∀ (s : State) (r : BusAccess) (i : Instr), s.engine.access = some r → r.abandoned = true →
    s.engine.part = some (partAt r r.partsDone) →
    ((∃ lanes, i = .partAck lanes s.engine.presented) ∨ i = .partErr s.engine.presented ∨
      i = .partRty s.engine.presented ∨ (i = .responseTimerExpiry ∧ s.TimerRanOut)) →
    let part := partAt r r.partsDone
    let reservations :=
      if part.isWrite = true ∧ ∃ lanes, i = .partAck lanes s.engine.presented then s.brokenAt part.addr
      else s.monitor.reservations
    let ended : State := { s with
      links := { s.links with engineToTable := s.links.engineToTable ++ [(r.window, r.epoch)] }
      engine := s.engine.idled
      monitor := { s.monitor with reservations := reservations } }
    ∃ t more, exec i s = .next t ∧ ended.Chooses t ∧
      t.links.engineToTable = s.links.engineToTable ++ (r.window, r.epoch) :: more ∧
      t.engine.store = s.engine.store ∧ t.config = s.config ∧
      (∀ q, t.reservation q = reservations.get q ∨ (t.reservation q = none ∧
        ∃ a adm, s.OffersAccess q a adm ∧ a.kind = .conditionalWrite)) ∧
      (∀ x, t.engine.access = some x → x.abandoned = false) ∧
      (∀ q, (t.port q).fault = (s.port q).fault ∧ (t.port q).overflow = (s.port q).overflow ∧
        (t.port q).faultLine = (s.port q).faultLine ∧
        ((t.port q).answer = (s.port q).answer ∨ ((t.port q).answer = some .linkFailed ∧
          ∃ a adm, s.OffersAccess q a adm ∧ a.kind = .conditionalWrite))) ∧
      (s.engine.extRequest = false → (∀ q, ¬ s.HasCandidate q) → t = ended)

/-- The external master is granted in the event in which it requests a free bus, and otherwise waits; withdrawing while
granted it gives the bus back, and the rotation order is as it was, an access in the retry waiters keeping its record; a
write cycle it ends ACK while it holds the grant breaks every reservation on its granule (R97, R98, R116, R117, R141).
That EXTERNAL_WRITE_ACK outside the grant changes nothing is the model's reading, notes/assumptions/23.md, and so is the
way of a command without its occasion, notes/assumptions/2.md. -/
def Obligations.ExternalMasterSharesTheBus : Prop :=
  ∀ s : State,
    (s.engine.extRequest = false →
      (s.engine.holder = .free → exec .externalRequest s =
        .next { s with engine := { s.engine with extRequest := true, extGrant := true, holder := .external } }) ∧
      (s.engine.holder ≠ .free → exec .externalRequest s =
        .next { s with engine := { s.engine with extRequest := true } })) ∧
    (s.engine.holder ≠ .external → exec .externalWithdraw s =
      .next { s with engine := { s.engine with extRequest := false } }) ∧
    (s.engine.holder = .external →
      ((s.engine.access = none ∧ ∀ q, ¬ s.HasCandidate q) ∨
        ∃ r, s.engine.access = some r ∧ r.origin ∈ s.engine.retryWaiters) →
      exec .externalWithdraw s =
        .next { s with engine := { s.engine with extRequest := false, extGrant := false, holder := .free } }) ∧
    (∀ a size, s.engine.holder = .external → exec (.externalWriteAck a size) s =
      .next { s with monitor := { s.monitor with reservations := s.brokenAt a } }) ∧
    (∀ a size, s.engine.holder ≠ .external → exec (.externalWriteAck a size) s = .next s)

/-- When the external master gives the bus back, the arbiter grants the candidate of the highest rank, the first of these in
the rotation order: the port moves to the end of the order, and the next part starts. A record that is present is kept,
its port alone being eligible; otherwise the record is formed from the port's oldest store entry or else its current
access. A conditional write starts only with a reservation on its granule, which it consumes; otherwise it finishes
LINK_FAILED without a cycle, and the arbiter makes a choice again (R95, R98, R99, R101, R113, R116, R125, R139). -/
def Obligations.ArbiterGrantsByRankThenRotation : Prop :=
  ∀ s : State, s.engine.holder = .external →
    (∃ t, exec .externalWithdraw s = .next t ∧ State.Chooses
      { s with engine := { s.engine with extRequest := false, extGrant := false, holder := .free } } t) ∧
    ∀ p, s.GrantsFirst p →
      let limit := s.config.retryLimit
      let granted (r : BusAccess) : Engine := { s.grantedEngine p r with extRequest := false, extGrant := false }
      (∀ r, s.engine.access = some r →
        (r.kind ≠ .conditionalWrite → exec .externalWithdraw s = .next { s with engine := granted r }) ∧
        (r.kind = .conditionalWrite → s.HoldsGranule p r.sysAddr → exec .externalWithdraw s =
          .next { s with
            engine := granted r
            monitor := { s.monitor with reservations := vput s.monitor.reservations p none } })) ∧
      (s.engine.access = none → ∀ e before after, s.OldestEntry p e before after →
        exec .externalWithdraw s = .next { s with engine := granted (recordOfEntry e limit) }) ∧
      (s.engine.access = none → ∀ a adm, s.NoEntry p → s.OffersAccess p a adm →
        let onBus := vput s.ports p { s.port p with current := .onBus a adm }
        let r := recordOfAccess p a adm limit
        (a.kind ≠ .conditionalWrite → exec .externalWithdraw s =
          .next { s with ports := onBus, engine := granted r }) ∧
        (a.kind = .conditionalWrite → s.HoldsGranule p adm.sysAddr → exec .externalWithdraw s =
          .next { s with
            ports := onBus
            engine := granted r
            monitor := { s.monitor with reservations := vput s.monitor.reservations p none } }) ∧
        (a.kind = .conditionalWrite → ¬ s.HoldsGranule p adm.sysAddr → s.KeepsState p →
          s.engine.part = none → s.engine.timer = none → (∀ q, q ≠ p → ¬ s.HasCandidate q) →
          exec .externalWithdraw s = .next { s with
            ports := vput s.ports p ((s.port p).answered .linkFailed)
            links := { s.links with engineToTable := s.links.engineToTable ++ [(adm.window, adm.epoch)] }
            engine := { s.engine with
              extRequest := false, extGrant := false, holder := .free
              rotation := servedOrder s.engine.rotation p } }))

/-- A candidate that becomes eligible while the bus is free is in the choice of the same event: an access that an ADMIT answer
or the taking of an addition offers, a conditional write among them, and a posted write so accepted, as a store entry;
alone, it starts its first part at once (R34, R38, R98, R101, R113, R121). That the waiting access is the one the addition
was sent for is the model's reading, notes/assumptions/9.md. -/
def Obligations.FreeBusTakesTheNewCandidate : Prop :=
  ∀ (s : State) (p : PortId) (a : Access) (adm : Admission), s.engine.holder = .free →
    let offered (base : State) (u : PortUnit) (m : State) : Prop :=
      (adm.posted = false → m = { base with ports := vput base.ports p { u with current := .waiting a adm true } }) ∧
      (adm.posted = true → s.HasRoom p → m = { base with
        ports := vput base.ports p
          { u with current := .idle, answer := some (.done none), occupancyCopy := u.occupancyCopy + 1 }
        engine := { s.engine with store := s.engine.store ++ [entryOf p u.epoch a adm] } })
    let alone : Prop := a.kind ≠ .conditionalWrite ∧ s.engine.access = none ∧ s.NoneElseWaits p ∧ s.NoEntry p ∧
      p ∉ s.engine.retryWaiters ∧ p ∈ s.engine.rotation
    let grants (u : PortUnit) (t : State) : Prop :=
      (adm.posted = false →
        t.engine = s.grantedEngine p (recordOfAccess p a adm s.config.retryLimit) ∧
        t.port p = { u with current := .onBus a adm }) ∧
      (adm.posted = true → s.HasRoom p →
        t.engine = { s.grantedEngine p (recordOfEntry (entryOf p u.epoch a adm) s.config.retryLimit) with
          store := s.engine.store ++ [entryOf p u.epoch a adm] } ∧
        t.port p = { u with
          current := .idle, answer := some (.done none), occupancyCopy := u.occupancyCopy + 1 })
    (adm.posted = false ∨ s.HasRoom p) →
    (∀ c rest, s.toPort p = .admitted c :: rest → (s.port p).current = .walking a true →
      (s.port p).staleWalk = false → adm = admissionOf c a →
      let u : PortUnit := { s.port p with lookaside := (s.port p).lookaside.install c }
      ∃ m t, exec (.admitAnswer p) s = .next t ∧ m.Chooses t ∧
        offered { s with
          links := { s.links with toPort := vput s.links.toPort p rest }
          monitor := { s.monitor with reservations :=
            if a.kind = .linkedRead then vput s.monitor.reservations p none else s.monitor.reservations } } u m ∧
        (alone → grants u t ∧ ∀ q, q ≠ p → t.port q = s.port q)) ∧
    (∀ w e rest b, s.toTable p = .addition w e :: rest → (s.record w).body = some b → b.counts.get e < 23 →
      (s.port p).current = .waiting a adm false →
      let g := (s.record w).generation
      let raised := b.withCount e (b.counts.get e + 1)
      let units := Units.evaluated s.port g raised
      ∃ base m t, exec (.addition p) s = .next t ∧ m.Chooses t ∧
        s.Takes base p (.addition w e) rest ∧ base.port = units ∧
        base = { s with
          ports := base.ports
          links := { s.links with toTable := base.links.toTable }
          table := { s.table with
            records := vput s.table.records w (evaluatedRecord g raised), walks := base.table.walks } } ∧
        offered base (units p) m ∧
        (alone → b.pendingOp = none → grants (s.port p) t ∧ ∀ q, q ≠ p → t.port q = s.port q))

/-! ### Port life: quiesce, port reset, device reset (Section 9) -/

/-- An entry-finished report lowers the port's occupancy copy by one. A QUIESCING port whose current access is IDLE and
whose copy is 0, after such a report or after an event that returns its access to IDLE (a park's end, a DENY or NONE
answer, a finish on the bus, a LINK_FAILED at a grant), enters OFFLINE in that event: its lookaside is emptied, its offline
notice sent, its slot cleared, and DONE posted to its offline requester; and no event leaves a port QUIESCING with the
condition met (R127, R170, R171, R175). With other candidates waiting, PartAckFinishesTheAccess, FailedAccessAnswersError
and the choices say the same. -/
def Obligations.QuiesceCompletesInTheEvent : Prop :=
  State.IsKept State.NoneLeftQuiesced ∧
  ∀ (s : State) (p : PortId),
    let u := s.port p
    let goesOffline (i : Instr) (x : PortUnit) (base : State) : Prop := ∃ t, exec i s = .next t ∧
      s.Sends t p [.offlineNotice] ∧
      t.port = (Units.put s.port p x).wentOffline p (s.requestOf p).isSome ∧
      t = { base with
        ports := t.ports
        links := { base.links with toTable := t.links.toTable }
        table := { base.table with walks := t.table.walks } }
    (∀ n, s.links.reports.get p = n + 1 →
      let base : State := { s with links := { s.links with reports := vput s.links.reports p n } }
      let x : PortUnit := { u with occupancyCopy := u.occupancyCopy - 1 }
      (¬ x.QuiesceMet → exec (.entryFinishedReport p) s = .next { base with ports := vput s.ports p x }) ∧
      (x.QuiesceMet → goesOffline (.entryFinishedReport p) x base)) ∧
    (u.state = .quiescing → u.occupancyCopy = 0 →
      (∀ a w n k, u.current = .parked a w { limit := n, ticks := k } → n < k →
        goesOffline (.parkTimerExpiry p) (u.answered .retry) s) ∧
      (∀ m rest, s.toPort p = m :: rest →
        let base : State := { s with links := { s.links with toPort := vput s.links.toPort p rest } }
        (∀ a w x, m = .retireNotice w → u.current = .parked a w x →
          goesOffline (.retireNotice p) (u.answered .retry) base) ∧
        (∀ a, u.current = .walking a true → u.staleWalk = false →
          (m = .noWindow →
            goesOffline (.noneAnswer p) ((u.answered .error).offered (matchFaultOf a .noWindow none)) base) ∧
          ∀ c k, m = .denied c k →
            goesOffline (.denyAnswer p)
              ((PortUnit.answered { u with lookaside := u.lookaside.install c } .error).offered
                (matchFaultOf a k (some c.window))) base)) ∧
      (s.NoneElseWaits p → s.NoEntry p → ∀ a adm,
        let subtracted (w : WindowId) (e : Epoch) : Links :=
          { s.links with engineToTable := s.links.engineToTable ++ [(w, e)] }
        (∀ r, s.Presents r → r.origin = p → r.fromStore = false → u.current = .onBus a adm →
          let base : State := { s with links := subtracted r.window r.epoch, engine := s.engine.idled }
          (∀ lanes, r.partsTotal ≤ r.partsDone + 1 →
            goesOffline (.partAck lanes s.engine.presented) (u.answered (doneAnswer r lanes))
              { base with monitor := { s.monitor with reservations := s.reservationsDone r } }) ∧
          ∀ i k, s.EndsInFailure r i k → goesOffline i ((u.answered .error).offered (busFaultOf k r a)) base) ∧
        (s.engine.holder = .free → s.engine.access = none → p ∉ s.engine.retryWaiters → p ∈ s.engine.rotation →
          ∀ c rest, s.toPort p = .admitted c :: rest → u.current = .walking a true → u.staleWalk = false →
            adm = admissionOf c a → a.kind = .conditionalWrite → ¬ s.HoldsGranule p adm.sysAddr →
            goesOffline (.admitAnswer p)
              (PortUnit.answered { u with lookaside := u.lookaside.install c } .linkFailed)
              { s with
                links := { subtracted adm.window adm.epoch with toPort := vput s.links.toPort p rest }
                engine := { s.engine with rotation := servedOrder s.engine.rotation p } })))

/-- A port reset abandons the current access by its stage, without an answer: one not yet granted is subtracted by the
port, one on the bus is marked abandoned while its part runs and is subtracted by the engine otherwise, and a sent walk is
left stale. The lookaside, the fault record, the reservation and the slot are cleared, the epoch rises, FENCED becomes
ACTIVE, and a QUIESCING port with an occupancy copy of 0 enters OFFLINE. Where a retrying access is so abandoned at a free
bus, the arbiter makes its choices among all that wait (R114, R145, R173 to R176, R181). That an input already asserted is
no new reset is the model's reading, notes/assumptions/7.md; its release changes nothing else. -/
def Obligations.PortResetAbandonsTheAccess : Prop :=
  ∀ (s : State) (p : PortId),
    let u := s.port p
    let untaken := (s.requestOf p).isSome
    let reset : PortUnit := { u with
      resetInput := true
      current := .idle
      lookaside := { entries := vfill 4 none, order := [] }
      fault := none
      overflow := 0
      faultLine := false
      epoch := u.epoch + 1
      state := if u.state = .fenced then .active else u.state
      staleWalk := match u.current with | .walking _ true => true | _ => u.staleWalk
      slot := u.slot.emptied
      staleRequest := u.staleRequest || untaken }
    let ends := u.state = .quiescing ∧ u.occupancyCopy = 0
    let leaves (ms : List PortMessage) (engine : Engine) (subtractions : List (WindowId × Epoch)) : Prop :=
      ∃ t, exec (.portReset p) s = .next t ∧
        (ends → s.Sends t p (ms ++ [.offlineNotice]) ∧
          t.port = (Units.put s.port p reset).wentOffline p untaken) ∧
        (¬ ends → s.Sends t p ms ∧ t.port = Units.put s.port p reset) ∧
        t = { s with
          ports := t.ports
          links := { s.links with
            toTable := t.links.toTable, engineToTable := s.links.engineToTable ++ subtractions }
          table := { s.table with walks := t.table.walks }
          engine := engine
          monitor := { s.monitor with reservations := vput s.monitor.reservations p none } }
    (u.resetInput = false →
      ((∀ a adm o, u.current ≠ .waiting a adm o) → (∀ a adm, u.current ≠ .onBus a adm) → leaves [] s.engine []) ∧
      (∀ a adm o, u.current = .waiting a adm o → leaves [.subtraction adm.window adm.epoch]
        { s.engine with waitingList := s.engine.waitingList.filter fun q => q ≠ p } []) ∧
      ∀ a adm r, u.current = .onBus a adm → s.engine.access = some r → r.origin = p → r.fromStore = false →
        r.abandoned = false →
        (s.engine.part ≠ none → leaves [] { s.engine with access := some { r with abandoned := true } } []) ∧
        (s.engine.part = none → (s.engine.holder ≠ .free ∨ (s.NoneElseWaits p ∧ s.NoEntry p)) →
          leaves []
            { s.engine with
              access := none, retryWaiters := s.engine.retryWaiters.filter fun q => q ≠ p }
            [(r.window, r.epoch)]) ∧
        (s.engine.part = none → s.engine.holder = .free → ∃ m t, exec (.portReset p) s = .next t ∧
          State.Chooses { s with
            ports := vput s.ports p { u with resetInput := true, current := .idle }
            links := { s.links with engineToTable := s.links.engineToTable ++ [(r.window, r.epoch)] }
            engine := { s.engine with
              access := none, retryWaiters := s.engine.retryWaiters.filter fun q => q ≠ p } } m ∧
          State.Becomes { m with monitor := { m.monitor with
            reservations := vput m.monitor.reservations p none } } p reset t)) ∧
    (u.resetInput = true → exec (.portReset p) s = .next s) ∧
    exec (.portResetRelease p) s = .next { s with ports := vput s.ports p { u with resetInput := false } }

/-- A device reset sets every block to its reset value, by the straps sampled at its release: W0 the boot window and W1 to
W63 FREE at generation 0, ports and roles by the straps, slots, stores, channels and fault records empty, parameters at
their defaults. A port reset input still asserted is taken as a port reset, whose only trace is an epoch of 1, and an
external master that requests is granted (R24, R82, R94, R118, R131, R134, R165, R166, R177, R181, R191). The model's own:
one command for assertion and release, with the inputs as they stand (notes/assumptions/15.md); the queue, left as it is
(17.md); the answers, absent (12.md); and the number of parts presented, kept (25.md). -/
def Obligations.DeviceResetSetsEveryBlock : Prop :=
  ∀ (s : State) (st : Straps),
    let online : Vector Bool 6 := #v[true, st.onl1, st.onl2, st.onl3, st.onl4, st.onl5]
    let supervisors : Vector Bool 6 := #v[true, st.sup1, st.sup2, st.sup3, st.sup4, st.sup5]
    let width : Width := if st.bw1 then .w32 else if st.bw0 then .w16 else .w8
    ∃ t, exec (.deviceReset st) s = .next t ∧
      (∀ p, t.port p =
        { state := if online.get p then .active else .offline
          role := if supervisors.get p then .supervisor else .ordinary
          epoch := if (s.port p).resetInput then 1 else 0
          current := .idle
          lookaside := { entries := vfill 4 none, order := [] }
          staleWalk := false
          staleRequest := false
          occupancyCopy := 0
          offlineRequester := none
          fault := none
          overflow := 0
          faultLine := false
          slot :=
            { state := .idle, overrun := false, number := 0, request := 0, params := vfill 6 0, result := 0,
              resultWords := vfill 5 0, held := none, doneLine := false }
          resetInput := (s.port p).resetInput
          answer := none }) ∧
      (∀ w, t.record w =
        if w = 0 then
          { generation := 0
            body := some
              { phase := .live
                terms :=
                  { localBase := 0, sizeCode := 24, targetBase := if st.btop then 0xFFF000000 else 0,
                    fetch := .allowed, level := .any, width := width, posting := .strict, linkable := false }
                rights := #v[.readWrite, .noRight, .noRight, .noRight, .noRight, .noRight]
                epoch := 0
                counts := vfill 2 0
                pendingOp := none
                shootSet := []
                setGeneration := none } }
        else { generation := 0, body := none }) ∧
      (∀ p, t.table.offlineView.get p = !online.get p) ∧ (∀ p, t.waitingWalk p = none) ∧
      t.table.walkOrder = [0, 1, 2, 3, 4, 5] ∧ t.table.requestOrder = [0, 1, 2, 3, 4, 5] ∧
      (∀ p, t.toTable p = [] ∧ t.toPort p = [] ∧ t.requestOf p = none ∧ t.links.reports.get p = 0) ∧
      t.links.engineToTable = [] ∧
      t.engine =
        { holder := if s.engine.extRequest then .external else .free
          access := none
          rotation := [0, 1, 2, 3, 4, 5]
          retryWaiters := []
          retryTick := false
          timer := none
          part := none
          presented := s.engine.presented
          store := []
          waitingList := []
          extRequest := s.engine.extRequest
          extGrant := s.engine.extRequest } ∧
      (∀ p, t.reservation p = none ∧ t.monitor.permission.get p = online.get p) ∧
      (∀ w, t.monitor.linkEpoch.get w = if w = 0 then some 0 else none) ∧
      t.config =
        { straps := st, parkLimit := 32, responseLimit := 64, retryLimit := 3, ranks := vfill 6 1, fault := none,
          overflow := 0, alertLine := false } ∧
      t.pending = s.pending

/-! ### Laws that every step keeps -/

/-- FAULT is asserted exactly while the port fault record is occupied, ALERT exactly while the device fault record is, DONE
exactly while the slot is COMPLETE. -/
def Obligations.LinesKeepFollowingRecords : Prop := State.IsKept State.LinesFollowRecords

/-- The store holds at most 16 entries, at most 8 of them from one port. -/
def Obligations.StoreKeepsWithinBounds : Prop := State.IsKept State.StoreWithinBounds

/-- For each port and each local address, at most one window matches. -/
def Obligations.WindowsKeepFromOverlapping : Prop := State.IsKept State.AtMostOneMatch

/-- Link epochs follow the LIVE windows, reservations name LIVE windows only, and pending operations fit their windows'
states; and a reservation's window keeps granting its port a right, through every step (R147). The right of a linked read
on the bus, taken here as a premise, is what R147's reasons give for copies counted under the current epoch; as set
generations have 16 bits (R7, R80), a shoot-down left untaken through 65536 requests could break it, so it is no law of
every run. -/
def Obligations.ReservationsKeepToLiveWindows : Prop :=
  State.IsKept State.LinksFollowWindows ∧
  ∀ s t, s.LinksFollowWindows → s.LinkedReadHasRight → s.ReservationsHaveRights → step s = .next t →
    t.ReservationsHaveRights

/-- An OFFLINE port holds no lookaside entries, no reservation, no current access and no store entries. -/
def Obligations.OfflinePortsKeepEmpty : Prop := State.IsKept State.PortsAccountForWork

/-- I0 is ACTIVE or FENCED, and never OFFLINE in the table's view. -/
def Obligations.PortZeroKeepsServing : Prop := State.IsKept State.PortZeroServes

/-- The part presented, the response timer, the bus holder, the bus access record, the grant line and the waiting list agree
with each other and with the stages of the current accesses. -/
def Obligations.BusKeepsConsistent : Prop := State.IsKept State.BusConsistent

/-- Every window's fields stay valid, every outstanding set keeps its set generation, and no in-flight count exceeds 23
(R1, R2, R12, R80). How a count keeps its bound while subtractions wait is the model's choice, notes/assumptions/27.md. -/
def Obligations.RecordsKeepLegal : Prop := State.IsKept State.RecordsLegal

/-- The rotation orders stay orders of the six ports, the parameters stay in range, the lookasides well kept, and a walk
first on its channel waits at the request arbiter (the last is the model's reading, notes/assumptions/24.md). -/
def Obligations.UnitsKeepLegal : Prop := State.IsKept State.UnitsLegal

/-- Right after reset every one of these laws holds (State.reset takes every strap low, notes/assumptions/1.md), whatever
the straps of a later device reset. -/
def Obligations.LawsHoldAfterReset : Prop :=
  let lawful (s : State) : Prop :=
    s.LinesFollowRecords ∧ s.StoreWithinBounds ∧ s.AtMostOneMatch ∧ s.LinksFollowWindows ∧ s.PortsAccountForWork ∧
    s.PortZeroServes ∧ s.BusConsistent ∧ s.RecordsLegal ∧ s.UnitsLegal ∧ s.NoneLeftQuiesced ∧ s.ReservationsHaveRights
  lawful State.reset ∧ ∀ s st t, exec (.deviceReset st) s = .next t → lawful t
end

