-- ==== Sys2Proof/Laws/State.lean ====
section
/-! SUPPORT. One lemma per field of State for each update of Machine/Ops.lean, each true by unfolding: what the update
writes, and that it leaves every other field as it was. Then the same for the accessors that read one port, one record
or one channel, and the reading of a vector after one of its elements is replaced. No later proof unfolds a record
update. -/

namespace Sys2Proof.Machine

/-! ### Vectors -/

/-- Reading an element after one is replaced. -/
@[simp] theorem vput_get {α : Type} {n : Nat} (v : Vector α n) (i j : Fin n) (x : α) :
    (vput v i x).get j = if j = i then x else v.get j := by
  by_cases h : j = i
  · subst h; simp [vput, Vector.get_eq_getElem]
  · have : i.val ≠ j.val := fun e => h (Fin.ext e.symm)
    simp [vput, Vector.get_eq_getElem, this, h]

@[simp] theorem vmap_get {α β : Type} {n : Nat} (f : α → β) (v : Vector α n) (i : Fin n) :
    (vmap f v).get i = f (v.get i) := by
  simp [vmap, Vector.get_eq_getElem]

@[simp] theorem vfill_get {α : Type} {n : Nat} (x : α) (i : Fin n) : (vfill n x).get i = x := by
  simp [vfill, Vector.get_eq_getElem]

@[simp] theorem ofFn_get {α : Type} {n : Nat} (f : Fin n → α) (i : Fin n) : (Vector.ofFn f).get i = f i := by
  simp [Vector.get_eq_getElem]

/-- Two vectors with the same elements are the same vector. -/
theorem vector_ext_get {α : Type} {n : Nat} {v w : Vector α n} (h : ∀ i, v.get i = w.get i) : v = w := by
  apply Vector.ext
  intro i hi
  simpa [Vector.get_eq_getElem] using h ⟨i, hi⟩

/-- The later of two replacements of one element stands. -/
@[simp] theorem vput_vput {α : Type} {n : Nat} (v : Vector α n) (i : Fin n) (x y : α) :
    vput (vput v i x) i y = vput v i y := by
  apply vector_ext_get
  intro j
  by_cases h : j = i <;> simp [h]

/-- Replacing an element by itself changes nothing. -/
@[simp] theorem vput_self {α : Type} {n : Nat} (v : Vector α n) (i : Fin n) : vput v i (v.get i) = v := by
  apply vector_ext_get
  intro j
  by_cases h : j = i <;> simp [h]

/-- Replacements of different elements may be made in either order. -/
theorem vput_comm {α : Type} {n : Nat} (v : Vector α n) {i j : Fin n} (h : i ≠ j) (x y : α) :
    vput (vput v i x) j y = vput (vput v j y) i x := by
  apply vector_ext_get
  intro k
  by_cases hi : k = i <;> by_cases hj : k = j <;> simp_all

/-! ### setPort -/

@[simp] theorem State.setPort_ports (s : State) (p : PortId) (u : PortUnit) :
    (s.setPort p u).ports = vput s.ports p u := rfl

@[simp] theorem State.setPort_links (s : State) (p : PortId) (u : PortUnit) :
    (s.setPort p u).links = s.links := rfl

@[simp] theorem State.setPort_table (s : State) (p : PortId) (u : PortUnit) :
    (s.setPort p u).table = s.table := rfl

@[simp] theorem State.setPort_engine (s : State) (p : PortId) (u : PortUnit) :
    (s.setPort p u).engine = s.engine := rfl

@[simp] theorem State.setPort_monitor (s : State) (p : PortId) (u : PortUnit) :
    (s.setPort p u).monitor = s.monitor := rfl

@[simp] theorem State.setPort_config (s : State) (p : PortId) (u : PortUnit) :
    (s.setPort p u).config = s.config := rfl

@[simp] theorem State.setPort_pending (s : State) (p : PortId) (u : PortUnit) :
    (s.setPort p u).pending = s.pending := rfl

/-! ### modifyPort -/

@[simp] theorem State.modifyPort_ports (s : State) (p : PortId) (f : PortUnit → PortUnit) :
    (s.modifyPort p f).ports = vput s.ports p (f (s.port p)) := rfl

@[simp] theorem State.modifyPort_links (s : State) (p : PortId) (f : PortUnit → PortUnit) :
    (s.modifyPort p f).links = s.links := rfl

@[simp] theorem State.modifyPort_table (s : State) (p : PortId) (f : PortUnit → PortUnit) :
    (s.modifyPort p f).table = s.table := rfl

@[simp] theorem State.modifyPort_engine (s : State) (p : PortId) (f : PortUnit → PortUnit) :
    (s.modifyPort p f).engine = s.engine := rfl

@[simp] theorem State.modifyPort_monitor (s : State) (p : PortId) (f : PortUnit → PortUnit) :
    (s.modifyPort p f).monitor = s.monitor := rfl

@[simp] theorem State.modifyPort_config (s : State) (p : PortId) (f : PortUnit → PortUnit) :
    (s.modifyPort p f).config = s.config := rfl

@[simp] theorem State.modifyPort_pending (s : State) (p : PortId) (f : PortUnit → PortUnit) :
    (s.modifyPort p f).pending = s.pending := rfl

/-! ### setRecord -/

@[simp] theorem State.setRecord_ports (s : State) (w : WindowId) (r : WindowRecord) :
    (s.setRecord w r).ports = s.ports := rfl

@[simp] theorem State.setRecord_links (s : State) (w : WindowId) (r : WindowRecord) :
    (s.setRecord w r).links = s.links := rfl

@[simp] theorem State.setRecord_table_records (s : State) (w : WindowId) (r : WindowRecord) :
    (s.setRecord w r).table.records = vput s.table.records w r := rfl

@[simp] theorem State.setRecord_table_offlineView (s : State) (w : WindowId) (r : WindowRecord) :
    (s.setRecord w r).table.offlineView = s.table.offlineView := rfl

@[simp] theorem State.setRecord_table_walks (s : State) (w : WindowId) (r : WindowRecord) :
    (s.setRecord w r).table.walks = s.table.walks := rfl

@[simp] theorem State.setRecord_table_walkOrder (s : State) (w : WindowId) (r : WindowRecord) :
    (s.setRecord w r).table.walkOrder = s.table.walkOrder := rfl

@[simp] theorem State.setRecord_table_requestOrder (s : State) (w : WindowId) (r : WindowRecord) :
    (s.setRecord w r).table.requestOrder = s.table.requestOrder := rfl

@[simp] theorem State.setRecord_engine (s : State) (w : WindowId) (r : WindowRecord) :
    (s.setRecord w r).engine = s.engine := rfl

@[simp] theorem State.setRecord_monitor (s : State) (w : WindowId) (r : WindowRecord) :
    (s.setRecord w r).monitor = s.monitor := rfl

@[simp] theorem State.setRecord_config (s : State) (w : WindowId) (r : WindowRecord) :
    (s.setRecord w r).config = s.config := rfl

@[simp] theorem State.setRecord_pending (s : State) (w : WindowId) (r : WindowRecord) :
    (s.setRecord w r).pending = s.pending := rfl

/-! ### setBody -/

@[simp] theorem State.setBody_ports (s : State) (w : WindowId) (b : Option WindowBody) :
    (s.setBody w b).ports = s.ports := rfl

@[simp] theorem State.setBody_links (s : State) (w : WindowId) (b : Option WindowBody) :
    (s.setBody w b).links = s.links := rfl

@[simp] theorem State.setBody_table_records (s : State) (w : WindowId) (b : Option WindowBody) :
    (s.setBody w b).table.records = vput s.table.records w { s.record w with body := b } := rfl

@[simp] theorem State.setBody_table_offlineView (s : State) (w : WindowId) (b : Option WindowBody) :
    (s.setBody w b).table.offlineView = s.table.offlineView := rfl

@[simp] theorem State.setBody_table_walks (s : State) (w : WindowId) (b : Option WindowBody) :
    (s.setBody w b).table.walks = s.table.walks := rfl

@[simp] theorem State.setBody_table_walkOrder (s : State) (w : WindowId) (b : Option WindowBody) :
    (s.setBody w b).table.walkOrder = s.table.walkOrder := rfl

@[simp] theorem State.setBody_table_requestOrder (s : State) (w : WindowId) (b : Option WindowBody) :
    (s.setBody w b).table.requestOrder = s.table.requestOrder := rfl

@[simp] theorem State.setBody_engine (s : State) (w : WindowId) (b : Option WindowBody) :
    (s.setBody w b).engine = s.engine := rfl

@[simp] theorem State.setBody_monitor (s : State) (w : WindowId) (b : Option WindowBody) :
    (s.setBody w b).monitor = s.monitor := rfl

@[simp] theorem State.setBody_config (s : State) (w : WindowId) (b : Option WindowBody) :
    (s.setBody w b).config = s.config := rfl

@[simp] theorem State.setBody_pending (s : State) (w : WindowId) (b : Option WindowBody) :
    (s.setBody w b).pending = s.pending := rfl

/-! ### setToTable -/

@[simp] theorem State.setToTable_ports (s : State) (p : PortId) (l : List PortMessage) :
    (s.setToTable p l).ports = s.ports := rfl

@[simp] theorem State.setToTable_links_toTable (s : State) (p : PortId) (l : List PortMessage) :
    (s.setToTable p l).links.toTable = vput s.links.toTable p l := rfl

@[simp] theorem State.setToTable_links_toPort (s : State) (p : PortId) (l : List PortMessage) :
    (s.setToTable p l).links.toPort = s.links.toPort := rfl

@[simp] theorem State.setToTable_links_engineToTable (s : State) (p : PortId) (l : List PortMessage) :
    (s.setToTable p l).links.engineToTable = s.links.engineToTable := rfl

@[simp] theorem State.setToTable_links_reports (s : State) (p : PortId) (l : List PortMessage) :
    (s.setToTable p l).links.reports = s.links.reports := rfl

@[simp] theorem State.setToTable_links_requests (s : State) (p : PortId) (l : List PortMessage) :
    (s.setToTable p l).links.requests = s.links.requests := rfl

@[simp] theorem State.setToTable_table (s : State) (p : PortId) (l : List PortMessage) :
    (s.setToTable p l).table = s.table := rfl

@[simp] theorem State.setToTable_engine (s : State) (p : PortId) (l : List PortMessage) :
    (s.setToTable p l).engine = s.engine := rfl

@[simp] theorem State.setToTable_monitor (s : State) (p : PortId) (l : List PortMessage) :
    (s.setToTable p l).monitor = s.monitor := rfl

@[simp] theorem State.setToTable_config (s : State) (p : PortId) (l : List PortMessage) :
    (s.setToTable p l).config = s.config := rfl

@[simp] theorem State.setToTable_pending (s : State) (p : PortId) (l : List PortMessage) :
    (s.setToTable p l).pending = s.pending := rfl

/-! ### setToPort -/

@[simp] theorem State.setToPort_ports (s : State) (p : PortId) (l : List TableMessage) :
    (s.setToPort p l).ports = s.ports := rfl

@[simp] theorem State.setToPort_links_toTable (s : State) (p : PortId) (l : List TableMessage) :
    (s.setToPort p l).links.toTable = s.links.toTable := rfl

@[simp] theorem State.setToPort_links_toPort (s : State) (p : PortId) (l : List TableMessage) :
    (s.setToPort p l).links.toPort = vput s.links.toPort p l := rfl

@[simp] theorem State.setToPort_links_engineToTable (s : State) (p : PortId) (l : List TableMessage) :
    (s.setToPort p l).links.engineToTable = s.links.engineToTable := rfl

@[simp] theorem State.setToPort_links_reports (s : State) (p : PortId) (l : List TableMessage) :
    (s.setToPort p l).links.reports = s.links.reports := rfl

@[simp] theorem State.setToPort_links_requests (s : State) (p : PortId) (l : List TableMessage) :
    (s.setToPort p l).links.requests = s.links.requests := rfl

@[simp] theorem State.setToPort_table (s : State) (p : PortId) (l : List TableMessage) :
    (s.setToPort p l).table = s.table := rfl

@[simp] theorem State.setToPort_engine (s : State) (p : PortId) (l : List TableMessage) :
    (s.setToPort p l).engine = s.engine := rfl

@[simp] theorem State.setToPort_monitor (s : State) (p : PortId) (l : List TableMessage) :
    (s.setToPort p l).monitor = s.monitor := rfl

@[simp] theorem State.setToPort_config (s : State) (p : PortId) (l : List TableMessage) :
    (s.setToPort p l).config = s.config := rfl

@[simp] theorem State.setToPort_pending (s : State) (p : PortId) (l : List TableMessage) :
    (s.setToPort p l).pending = s.pending := rfl

/-! ### setWaitingWalk -/

@[simp] theorem State.setWaitingWalk_ports (s : State) (p : PortId) (h : Option AccessHead) :
    (s.setWaitingWalk p h).ports = s.ports := rfl

@[simp] theorem State.setWaitingWalk_links (s : State) (p : PortId) (h : Option AccessHead) :
    (s.setWaitingWalk p h).links = s.links := rfl

@[simp] theorem State.setWaitingWalk_table_records (s : State) (p : PortId) (h : Option AccessHead) :
    (s.setWaitingWalk p h).table.records = s.table.records := rfl

@[simp] theorem State.setWaitingWalk_table_offlineView (s : State) (p : PortId) (h : Option AccessHead) :
    (s.setWaitingWalk p h).table.offlineView = s.table.offlineView := rfl

@[simp] theorem State.setWaitingWalk_table_walks (s : State) (p : PortId) (h : Option AccessHead) :
    (s.setWaitingWalk p h).table.walks = vput s.table.walks p h := rfl

@[simp] theorem State.setWaitingWalk_table_walkOrder (s : State) (p : PortId) (h : Option AccessHead) :
    (s.setWaitingWalk p h).table.walkOrder = s.table.walkOrder := rfl

@[simp] theorem State.setWaitingWalk_table_requestOrder (s : State) (p : PortId) (h : Option AccessHead) :
    (s.setWaitingWalk p h).table.requestOrder = s.table.requestOrder := rfl

@[simp] theorem State.setWaitingWalk_engine (s : State) (p : PortId) (h : Option AccessHead) :
    (s.setWaitingWalk p h).engine = s.engine := rfl

@[simp] theorem State.setWaitingWalk_monitor (s : State) (p : PortId) (h : Option AccessHead) :
    (s.setWaitingWalk p h).monitor = s.monitor := rfl

@[simp] theorem State.setWaitingWalk_config (s : State) (p : PortId) (h : Option AccessHead) :
    (s.setWaitingWalk p h).config = s.config := rfl

@[simp] theorem State.setWaitingWalk_pending (s : State) (p : PortId) (h : Option AccessHead) :
    (s.setWaitingWalk p h).pending = s.pending := rfl

/-! ### setRequest -/

@[simp] theorem State.setRequest_ports (s : State) (p : PortId) (c : Option Captured) :
    (s.setRequest p c).ports = s.ports := rfl

@[simp] theorem State.setRequest_links_toTable (s : State) (p : PortId) (c : Option Captured) :
    (s.setRequest p c).links.toTable = s.links.toTable := rfl

@[simp] theorem State.setRequest_links_toPort (s : State) (p : PortId) (c : Option Captured) :
    (s.setRequest p c).links.toPort = s.links.toPort := rfl

@[simp] theorem State.setRequest_links_engineToTable (s : State) (p : PortId) (c : Option Captured) :
    (s.setRequest p c).links.engineToTable = s.links.engineToTable := rfl

@[simp] theorem State.setRequest_links_reports (s : State) (p : PortId) (c : Option Captured) :
    (s.setRequest p c).links.reports = s.links.reports := rfl

@[simp] theorem State.setRequest_links_requests (s : State) (p : PortId) (c : Option Captured) :
    (s.setRequest p c).links.requests = vput s.links.requests p c := rfl

@[simp] theorem State.setRequest_table (s : State) (p : PortId) (c : Option Captured) :
    (s.setRequest p c).table = s.table := rfl

@[simp] theorem State.setRequest_engine (s : State) (p : PortId) (c : Option Captured) :
    (s.setRequest p c).engine = s.engine := rfl

@[simp] theorem State.setRequest_monitor (s : State) (p : PortId) (c : Option Captured) :
    (s.setRequest p c).monitor = s.monitor := rfl

@[simp] theorem State.setRequest_config (s : State) (p : PortId) (c : Option Captured) :
    (s.setRequest p c).config = s.config := rfl

@[simp] theorem State.setRequest_pending (s : State) (p : PortId) (c : Option Captured) :
    (s.setRequest p c).pending = s.pending := rfl

/-! ### engineSubtract -/

@[simp] theorem State.engineSubtract_ports (s : State) (w : WindowId) (e : Epoch) :
    (s.engineSubtract w e).ports = s.ports := rfl

@[simp] theorem State.engineSubtract_links_toTable (s : State) (w : WindowId) (e : Epoch) :
    (s.engineSubtract w e).links.toTable = s.links.toTable := rfl

@[simp] theorem State.engineSubtract_links_toPort (s : State) (w : WindowId) (e : Epoch) :
    (s.engineSubtract w e).links.toPort = s.links.toPort := rfl

@[simp] theorem State.engineSubtract_links_engineToTable (s : State) (w : WindowId) (e : Epoch) :
    (s.engineSubtract w e).links.engineToTable = s.links.engineToTable ++ [(w, e)] := rfl

@[simp] theorem State.engineSubtract_links_reports (s : State) (w : WindowId) (e : Epoch) :
    (s.engineSubtract w e).links.reports = s.links.reports := rfl

@[simp] theorem State.engineSubtract_links_requests (s : State) (w : WindowId) (e : Epoch) :
    (s.engineSubtract w e).links.requests = s.links.requests := rfl

@[simp] theorem State.engineSubtract_table (s : State) (w : WindowId) (e : Epoch) :
    (s.engineSubtract w e).table = s.table := rfl

@[simp] theorem State.engineSubtract_engine (s : State) (w : WindowId) (e : Epoch) :
    (s.engineSubtract w e).engine = s.engine := rfl

@[simp] theorem State.engineSubtract_monitor (s : State) (w : WindowId) (e : Epoch) :
    (s.engineSubtract w e).monitor = s.monitor := rfl

@[simp] theorem State.engineSubtract_config (s : State) (w : WindowId) (e : Epoch) :
    (s.engineSubtract w e).config = s.config := rfl

@[simp] theorem State.engineSubtract_pending (s : State) (w : WindowId) (e : Epoch) :
    (s.engineSubtract w e).pending = s.pending := rfl

/-! ### setReservation -/

@[simp] theorem State.setReservation_ports (s : State) (p : PortId) (r : Option Reservation) :
    (s.setReservation p r).ports = s.ports := rfl

@[simp] theorem State.setReservation_links (s : State) (p : PortId) (r : Option Reservation) :
    (s.setReservation p r).links = s.links := rfl

@[simp] theorem State.setReservation_table (s : State) (p : PortId) (r : Option Reservation) :
    (s.setReservation p r).table = s.table := rfl

@[simp] theorem State.setReservation_engine (s : State) (p : PortId) (r : Option Reservation) :
    (s.setReservation p r).engine = s.engine := rfl

@[simp] theorem State.setReservation_monitor_reservations (s : State) (p : PortId) (r : Option Reservation) :
    (s.setReservation p r).monitor.reservations = vput s.monitor.reservations p r := rfl

@[simp] theorem State.setReservation_monitor_permission (s : State) (p : PortId) (r : Option Reservation) :
    (s.setReservation p r).monitor.permission = s.monitor.permission := rfl

@[simp] theorem State.setReservation_monitor_linkEpoch (s : State) (p : PortId) (r : Option Reservation) :
    (s.setReservation p r).monitor.linkEpoch = s.monitor.linkEpoch := rfl

@[simp] theorem State.setReservation_config (s : State) (p : PortId) (r : Option Reservation) :
    (s.setReservation p r).config = s.config := rfl

@[simp] theorem State.setReservation_pending (s : State) (p : PortId) (r : Option Reservation) :
    (s.setReservation p r).pending = s.pending := rfl

/-! ### setPermission -/

@[simp] theorem State.setPermission_ports (s : State) (p : PortId) (b : Bool) :
    (s.setPermission p b).ports = s.ports := rfl

@[simp] theorem State.setPermission_links (s : State) (p : PortId) (b : Bool) :
    (s.setPermission p b).links = s.links := rfl

@[simp] theorem State.setPermission_table (s : State) (p : PortId) (b : Bool) :
    (s.setPermission p b).table = s.table := rfl

@[simp] theorem State.setPermission_engine (s : State) (p : PortId) (b : Bool) :
    (s.setPermission p b).engine = s.engine := rfl

@[simp] theorem State.setPermission_monitor_reservations (s : State) (p : PortId) (b : Bool) :
    (s.setPermission p b).monitor.reservations = s.monitor.reservations := rfl

@[simp] theorem State.setPermission_monitor_permission (s : State) (p : PortId) (b : Bool) :
    (s.setPermission p b).monitor.permission = vput s.monitor.permission p b := rfl

@[simp] theorem State.setPermission_monitor_linkEpoch (s : State) (p : PortId) (b : Bool) :
    (s.setPermission p b).monitor.linkEpoch = s.monitor.linkEpoch := rfl

@[simp] theorem State.setPermission_config (s : State) (p : PortId) (b : Bool) :
    (s.setPermission p b).config = s.config := rfl

@[simp] theorem State.setPermission_pending (s : State) (p : PortId) (b : Bool) :
    (s.setPermission p b).pending = s.pending := rfl

/-! ### setLinkEpoch -/

@[simp] theorem State.setLinkEpoch_ports (s : State) (w : WindowId) (e : Option Epoch) :
    (s.setLinkEpoch w e).ports = s.ports := rfl

@[simp] theorem State.setLinkEpoch_links (s : State) (w : WindowId) (e : Option Epoch) :
    (s.setLinkEpoch w e).links = s.links := rfl

@[simp] theorem State.setLinkEpoch_table (s : State) (w : WindowId) (e : Option Epoch) :
    (s.setLinkEpoch w e).table = s.table := rfl

@[simp] theorem State.setLinkEpoch_engine (s : State) (w : WindowId) (e : Option Epoch) :
    (s.setLinkEpoch w e).engine = s.engine := rfl

@[simp] theorem State.setLinkEpoch_monitor_reservations (s : State) (w : WindowId) (e : Option Epoch) :
    (s.setLinkEpoch w e).monitor.reservations = s.monitor.reservations := rfl

@[simp] theorem State.setLinkEpoch_monitor_permission (s : State) (w : WindowId) (e : Option Epoch) :
    (s.setLinkEpoch w e).monitor.permission = s.monitor.permission := rfl

@[simp] theorem State.setLinkEpoch_monitor_linkEpoch (s : State) (w : WindowId) (e : Option Epoch) :
    (s.setLinkEpoch w e).monitor.linkEpoch = vput s.monitor.linkEpoch w e := rfl

@[simp] theorem State.setLinkEpoch_config (s : State) (w : WindowId) (e : Option Epoch) :
    (s.setLinkEpoch w e).config = s.config := rfl

@[simp] theorem State.setLinkEpoch_pending (s : State) (w : WindowId) (e : Option Epoch) :
    (s.setLinkEpoch w e).pending = s.pending := rfl

/-! ### keepReservations -/

@[simp] theorem State.keepReservations_ports (s : State) (keep : Reservation → Bool) :
    (s.keepReservations keep).ports = s.ports := rfl

@[simp] theorem State.keepReservations_links (s : State) (keep : Reservation → Bool) :
    (s.keepReservations keep).links = s.links := rfl

@[simp] theorem State.keepReservations_table (s : State) (keep : Reservation → Bool) :
    (s.keepReservations keep).table = s.table := rfl

@[simp] theorem State.keepReservations_engine (s : State) (keep : Reservation → Bool) :
    (s.keepReservations keep).engine = s.engine := rfl

@[simp] theorem State.keepReservations_monitor_reservations (s : State) (keep : Reservation → Bool) :
    (s.keepReservations keep).monitor.reservations = vmap (fun r => r.filter keep) s.monitor.reservations := rfl

@[simp] theorem State.keepReservations_monitor_permission (s : State) (keep : Reservation → Bool) :
    (s.keepReservations keep).monitor.permission = s.monitor.permission := rfl

@[simp] theorem State.keepReservations_monitor_linkEpoch (s : State) (keep : Reservation → Bool) :
    (s.keepReservations keep).monitor.linkEpoch = s.monitor.linkEpoch := rfl

@[simp] theorem State.keepReservations_config (s : State) (keep : Reservation → Bool) :
    (s.keepReservations keep).config = s.config := rfl

@[simp] theorem State.keepReservations_pending (s : State) (keep : Reservation → Bool) :
    (s.keepReservations keep).pending = s.pending := rfl

/-! ### modifyEngine -/

@[simp] theorem State.modifyEngine_ports (s : State) (f : Engine → Engine) :
    (s.modifyEngine f).ports = s.ports := rfl

@[simp] theorem State.modifyEngine_links (s : State) (f : Engine → Engine) :
    (s.modifyEngine f).links = s.links := rfl

@[simp] theorem State.modifyEngine_table (s : State) (f : Engine → Engine) :
    (s.modifyEngine f).table = s.table := rfl

@[simp] theorem State.modifyEngine_engine (s : State) (f : Engine → Engine) :
    (s.modifyEngine f).engine = f s.engine := rfl

@[simp] theorem State.modifyEngine_monitor (s : State) (f : Engine → Engine) :
    (s.modifyEngine f).monitor = s.monitor := rfl

@[simp] theorem State.modifyEngine_config (s : State) (f : Engine → Engine) :
    (s.modifyEngine f).config = s.config := rfl

@[simp] theorem State.modifyEngine_pending (s : State) (f : Engine → Engine) :
    (s.modifyEngine f).pending = s.pending := rfl

/-! ### One port, one record, one channel after an update -/

@[simp] theorem State.setPort_port_at (s : State) (p : PortId) (u : PortUnit) (q : PortId) :
    (s.setPort p u).port q = if q = p then u else s.port q := by
  simp [State.port]

@[simp] theorem State.setPort_record_at (s : State) (p : PortId) (u : PortUnit) (v : WindowId) :
    (s.setPort p u).record v = s.record v := rfl

@[simp] theorem State.setPort_toTable_at (s : State) (p : PortId) (u : PortUnit) (q : PortId) :
    (s.setPort p u).toTable q = s.toTable q := rfl

@[simp] theorem State.setPort_toPort_at (s : State) (p : PortId) (u : PortUnit) (q : PortId) :
    (s.setPort p u).toPort q = s.toPort q := rfl

@[simp] theorem State.setPort_waitingWalk_at (s : State) (p : PortId) (u : PortUnit) (q : PortId) :
    (s.setPort p u).waitingWalk q = s.waitingWalk q := rfl

@[simp] theorem State.setPort_requestOf_at (s : State) (p : PortId) (u : PortUnit) (q : PortId) :
    (s.setPort p u).requestOf q = s.requestOf q := rfl

@[simp] theorem State.setPort_reservation_at (s : State) (p : PortId) (u : PortUnit) (q : PortId) :
    (s.setPort p u).reservation q = s.reservation q := rfl

@[simp] theorem State.modifyPort_port_at (s : State) (p : PortId) (f : PortUnit → PortUnit) (q : PortId) :
    (s.modifyPort p f).port q = if q = p then f (s.port p) else s.port q := by
  simp [State.port]

@[simp] theorem State.modifyPort_record_at (s : State) (p : PortId) (f : PortUnit → PortUnit) (v : WindowId) :
    (s.modifyPort p f).record v = s.record v := rfl

@[simp] theorem State.modifyPort_toTable_at (s : State) (p : PortId) (f : PortUnit → PortUnit) (q : PortId) :
    (s.modifyPort p f).toTable q = s.toTable q := rfl

@[simp] theorem State.modifyPort_toPort_at (s : State) (p : PortId) (f : PortUnit → PortUnit) (q : PortId) :
    (s.modifyPort p f).toPort q = s.toPort q := rfl

@[simp] theorem State.modifyPort_waitingWalk_at (s : State) (p : PortId) (f : PortUnit → PortUnit) (q : PortId) :
    (s.modifyPort p f).waitingWalk q = s.waitingWalk q := rfl

@[simp] theorem State.modifyPort_requestOf_at (s : State) (p : PortId) (f : PortUnit → PortUnit) (q : PortId) :
    (s.modifyPort p f).requestOf q = s.requestOf q := rfl

@[simp] theorem State.modifyPort_reservation_at (s : State) (p : PortId) (f : PortUnit → PortUnit) (q : PortId) :
    (s.modifyPort p f).reservation q = s.reservation q := rfl

@[simp] theorem State.setRecord_port_at (s : State) (w : WindowId) (r : WindowRecord) (q : PortId) :
    (s.setRecord w r).port q = s.port q := rfl

@[simp] theorem State.setRecord_record_at (s : State) (w : WindowId) (r : WindowRecord) (v : WindowId) :
    (s.setRecord w r).record v = if v = w then r else s.record v := by
  simp [State.record]

@[simp] theorem State.setRecord_toTable_at (s : State) (w : WindowId) (r : WindowRecord) (q : PortId) :
    (s.setRecord w r).toTable q = s.toTable q := rfl

@[simp] theorem State.setRecord_toPort_at (s : State) (w : WindowId) (r : WindowRecord) (q : PortId) :
    (s.setRecord w r).toPort q = s.toPort q := rfl

@[simp] theorem State.setRecord_waitingWalk_at (s : State) (w : WindowId) (r : WindowRecord) (q : PortId) :
    (s.setRecord w r).waitingWalk q = s.waitingWalk q := rfl

@[simp] theorem State.setRecord_requestOf_at (s : State) (w : WindowId) (r : WindowRecord) (q : PortId) :
    (s.setRecord w r).requestOf q = s.requestOf q := rfl

@[simp] theorem State.setRecord_reservation_at (s : State) (w : WindowId) (r : WindowRecord) (q : PortId) :
    (s.setRecord w r).reservation q = s.reservation q := rfl

@[simp] theorem State.setBody_port_at (s : State) (w : WindowId) (b : Option WindowBody) (q : PortId) :
    (s.setBody w b).port q = s.port q := rfl

@[simp] theorem State.setBody_record_at (s : State) (w : WindowId) (b : Option WindowBody) (v : WindowId) :
    (s.setBody w b).record v = if v = w then { s.record w with body := b } else s.record v := by
  simp [State.record]

@[simp] theorem State.setBody_toTable_at (s : State) (w : WindowId) (b : Option WindowBody) (q : PortId) :
    (s.setBody w b).toTable q = s.toTable q := rfl

@[simp] theorem State.setBody_toPort_at (s : State) (w : WindowId) (b : Option WindowBody) (q : PortId) :
    (s.setBody w b).toPort q = s.toPort q := rfl

@[simp] theorem State.setBody_waitingWalk_at (s : State) (w : WindowId) (b : Option WindowBody) (q : PortId) :
    (s.setBody w b).waitingWalk q = s.waitingWalk q := rfl

@[simp] theorem State.setBody_requestOf_at (s : State) (w : WindowId) (b : Option WindowBody) (q : PortId) :
    (s.setBody w b).requestOf q = s.requestOf q := rfl

@[simp] theorem State.setBody_reservation_at (s : State) (w : WindowId) (b : Option WindowBody) (q : PortId) :
    (s.setBody w b).reservation q = s.reservation q := rfl

@[simp] theorem State.setToTable_port_at (s : State) (p : PortId) (l : List PortMessage) (q : PortId) :
    (s.setToTable p l).port q = s.port q := rfl

@[simp] theorem State.setToTable_record_at (s : State) (p : PortId) (l : List PortMessage) (v : WindowId) :
    (s.setToTable p l).record v = s.record v := rfl

@[simp] theorem State.setToTable_toTable_at (s : State) (p : PortId) (l : List PortMessage) (q : PortId) :
    (s.setToTable p l).toTable q = if q = p then l else s.toTable q := by
  simp [State.toTable]

@[simp] theorem State.setToTable_toPort_at (s : State) (p : PortId) (l : List PortMessage) (q : PortId) :
    (s.setToTable p l).toPort q = s.toPort q := rfl

@[simp] theorem State.setToTable_waitingWalk_at (s : State) (p : PortId) (l : List PortMessage) (q : PortId) :
    (s.setToTable p l).waitingWalk q = s.waitingWalk q := rfl

@[simp] theorem State.setToTable_requestOf_at (s : State) (p : PortId) (l : List PortMessage) (q : PortId) :
    (s.setToTable p l).requestOf q = s.requestOf q := rfl

@[simp] theorem State.setToTable_reservation_at (s : State) (p : PortId) (l : List PortMessage) (q : PortId) :
    (s.setToTable p l).reservation q = s.reservation q := rfl

@[simp] theorem State.setToPort_port_at (s : State) (p : PortId) (l : List TableMessage) (q : PortId) :
    (s.setToPort p l).port q = s.port q := rfl

@[simp] theorem State.setToPort_record_at (s : State) (p : PortId) (l : List TableMessage) (v : WindowId) :
    (s.setToPort p l).record v = s.record v := rfl

@[simp] theorem State.setToPort_toTable_at (s : State) (p : PortId) (l : List TableMessage) (q : PortId) :
    (s.setToPort p l).toTable q = s.toTable q := rfl

@[simp] theorem State.setToPort_toPort_at (s : State) (p : PortId) (l : List TableMessage) (q : PortId) :
    (s.setToPort p l).toPort q = if q = p then l else s.toPort q := by
  simp [State.toPort]

@[simp] theorem State.setToPort_waitingWalk_at (s : State) (p : PortId) (l : List TableMessage) (q : PortId) :
    (s.setToPort p l).waitingWalk q = s.waitingWalk q := rfl

@[simp] theorem State.setToPort_requestOf_at (s : State) (p : PortId) (l : List TableMessage) (q : PortId) :
    (s.setToPort p l).requestOf q = s.requestOf q := rfl

@[simp] theorem State.setToPort_reservation_at (s : State) (p : PortId) (l : List TableMessage) (q : PortId) :
    (s.setToPort p l).reservation q = s.reservation q := rfl

@[simp] theorem State.setWaitingWalk_port_at (s : State) (p : PortId) (h : Option AccessHead) (q : PortId) :
    (s.setWaitingWalk p h).port q = s.port q := rfl

@[simp] theorem State.setWaitingWalk_record_at (s : State) (p : PortId) (h : Option AccessHead) (v : WindowId) :
    (s.setWaitingWalk p h).record v = s.record v := rfl

@[simp] theorem State.setWaitingWalk_toTable_at (s : State) (p : PortId) (h : Option AccessHead) (q : PortId) :
    (s.setWaitingWalk p h).toTable q = s.toTable q := rfl

@[simp] theorem State.setWaitingWalk_toPort_at (s : State) (p : PortId) (h : Option AccessHead) (q : PortId) :
    (s.setWaitingWalk p h).toPort q = s.toPort q := rfl

@[simp] theorem State.setWaitingWalk_waitingWalk_at (s : State) (p : PortId) (h : Option AccessHead) (q : PortId) :
    (s.setWaitingWalk p h).waitingWalk q = if q = p then h else s.waitingWalk q := by
  simp [State.waitingWalk]

@[simp] theorem State.setWaitingWalk_requestOf_at (s : State) (p : PortId) (h : Option AccessHead) (q : PortId) :
    (s.setWaitingWalk p h).requestOf q = s.requestOf q := rfl

@[simp] theorem State.setWaitingWalk_reservation_at (s : State) (p : PortId) (h : Option AccessHead) (q : PortId) :
    (s.setWaitingWalk p h).reservation q = s.reservation q := rfl

@[simp] theorem State.setRequest_port_at (s : State) (p : PortId) (c : Option Captured) (q : PortId) :
    (s.setRequest p c).port q = s.port q := rfl

@[simp] theorem State.setRequest_record_at (s : State) (p : PortId) (c : Option Captured) (v : WindowId) :
    (s.setRequest p c).record v = s.record v := rfl

@[simp] theorem State.setRequest_toTable_at (s : State) (p : PortId) (c : Option Captured) (q : PortId) :
    (s.setRequest p c).toTable q = s.toTable q := rfl

@[simp] theorem State.setRequest_toPort_at (s : State) (p : PortId) (c : Option Captured) (q : PortId) :
    (s.setRequest p c).toPort q = s.toPort q := rfl

@[simp] theorem State.setRequest_waitingWalk_at (s : State) (p : PortId) (c : Option Captured) (q : PortId) :
    (s.setRequest p c).waitingWalk q = s.waitingWalk q := rfl

@[simp] theorem State.setRequest_requestOf_at (s : State) (p : PortId) (c : Option Captured) (q : PortId) :
    (s.setRequest p c).requestOf q = if q = p then c else s.requestOf q := by
  simp [State.requestOf]

@[simp] theorem State.setRequest_reservation_at (s : State) (p : PortId) (c : Option Captured) (q : PortId) :
    (s.setRequest p c).reservation q = s.reservation q := rfl

@[simp] theorem State.engineSubtract_port_at (s : State) (w : WindowId) (e : Epoch) (q : PortId) :
    (s.engineSubtract w e).port q = s.port q := rfl

@[simp] theorem State.engineSubtract_record_at (s : State) (w : WindowId) (e : Epoch) (v : WindowId) :
    (s.engineSubtract w e).record v = s.record v := rfl

@[simp] theorem State.engineSubtract_toTable_at (s : State) (w : WindowId) (e : Epoch) (q : PortId) :
    (s.engineSubtract w e).toTable q = s.toTable q := rfl

@[simp] theorem State.engineSubtract_toPort_at (s : State) (w : WindowId) (e : Epoch) (q : PortId) :
    (s.engineSubtract w e).toPort q = s.toPort q := rfl

@[simp] theorem State.engineSubtract_waitingWalk_at (s : State) (w : WindowId) (e : Epoch) (q : PortId) :
    (s.engineSubtract w e).waitingWalk q = s.waitingWalk q := rfl

@[simp] theorem State.engineSubtract_requestOf_at (s : State) (w : WindowId) (e : Epoch) (q : PortId) :
    (s.engineSubtract w e).requestOf q = s.requestOf q := rfl

@[simp] theorem State.engineSubtract_reservation_at (s : State) (w : WindowId) (e : Epoch) (q : PortId) :
    (s.engineSubtract w e).reservation q = s.reservation q := rfl

@[simp] theorem State.setReservation_port_at (s : State) (p : PortId) (r : Option Reservation) (q : PortId) :
    (s.setReservation p r).port q = s.port q := rfl

@[simp] theorem State.setReservation_record_at (s : State) (p : PortId) (r : Option Reservation) (v : WindowId) :
    (s.setReservation p r).record v = s.record v := rfl

@[simp] theorem State.setReservation_toTable_at (s : State) (p : PortId) (r : Option Reservation) (q : PortId) :
    (s.setReservation p r).toTable q = s.toTable q := rfl

@[simp] theorem State.setReservation_toPort_at (s : State) (p : PortId) (r : Option Reservation) (q : PortId) :
    (s.setReservation p r).toPort q = s.toPort q := rfl

@[simp] theorem State.setReservation_waitingWalk_at (s : State) (p : PortId) (r : Option Reservation) (q : PortId) :
    (s.setReservation p r).waitingWalk q = s.waitingWalk q := rfl

@[simp] theorem State.setReservation_requestOf_at (s : State) (p : PortId) (r : Option Reservation) (q : PortId) :
    (s.setReservation p r).requestOf q = s.requestOf q := rfl

@[simp] theorem State.setReservation_reservation_at (s : State) (p : PortId) (r : Option Reservation) (q : PortId) :
    (s.setReservation p r).reservation q = if q = p then r else s.reservation q := by
  simp [State.reservation]

@[simp] theorem State.setPermission_port_at (s : State) (p : PortId) (b : Bool) (q : PortId) :
    (s.setPermission p b).port q = s.port q := rfl

@[simp] theorem State.setPermission_record_at (s : State) (p : PortId) (b : Bool) (v : WindowId) :
    (s.setPermission p b).record v = s.record v := rfl

@[simp] theorem State.setPermission_toTable_at (s : State) (p : PortId) (b : Bool) (q : PortId) :
    (s.setPermission p b).toTable q = s.toTable q := rfl

@[simp] theorem State.setPermission_toPort_at (s : State) (p : PortId) (b : Bool) (q : PortId) :
    (s.setPermission p b).toPort q = s.toPort q := rfl

@[simp] theorem State.setPermission_waitingWalk_at (s : State) (p : PortId) (b : Bool) (q : PortId) :
    (s.setPermission p b).waitingWalk q = s.waitingWalk q := rfl

@[simp] theorem State.setPermission_requestOf_at (s : State) (p : PortId) (b : Bool) (q : PortId) :
    (s.setPermission p b).requestOf q = s.requestOf q := rfl

@[simp] theorem State.setPermission_reservation_at (s : State) (p : PortId) (b : Bool) (q : PortId) :
    (s.setPermission p b).reservation q = s.reservation q := rfl

@[simp] theorem State.setLinkEpoch_port_at (s : State) (w : WindowId) (e : Option Epoch) (q : PortId) :
    (s.setLinkEpoch w e).port q = s.port q := rfl

@[simp] theorem State.setLinkEpoch_record_at (s : State) (w : WindowId) (e : Option Epoch) (v : WindowId) :
    (s.setLinkEpoch w e).record v = s.record v := rfl

@[simp] theorem State.setLinkEpoch_toTable_at (s : State) (w : WindowId) (e : Option Epoch) (q : PortId) :
    (s.setLinkEpoch w e).toTable q = s.toTable q := rfl

@[simp] theorem State.setLinkEpoch_toPort_at (s : State) (w : WindowId) (e : Option Epoch) (q : PortId) :
    (s.setLinkEpoch w e).toPort q = s.toPort q := rfl

@[simp] theorem State.setLinkEpoch_waitingWalk_at (s : State) (w : WindowId) (e : Option Epoch) (q : PortId) :
    (s.setLinkEpoch w e).waitingWalk q = s.waitingWalk q := rfl

@[simp] theorem State.setLinkEpoch_requestOf_at (s : State) (w : WindowId) (e : Option Epoch) (q : PortId) :
    (s.setLinkEpoch w e).requestOf q = s.requestOf q := rfl

@[simp] theorem State.setLinkEpoch_reservation_at (s : State) (w : WindowId) (e : Option Epoch) (q : PortId) :
    (s.setLinkEpoch w e).reservation q = s.reservation q := rfl

@[simp] theorem State.keepReservations_port_at (s : State) (keep : Reservation → Bool) (q : PortId) :
    (s.keepReservations keep).port q = s.port q := rfl

@[simp] theorem State.keepReservations_record_at (s : State) (keep : Reservation → Bool) (v : WindowId) :
    (s.keepReservations keep).record v = s.record v := rfl

@[simp] theorem State.keepReservations_toTable_at (s : State) (keep : Reservation → Bool) (q : PortId) :
    (s.keepReservations keep).toTable q = s.toTable q := rfl

@[simp] theorem State.keepReservations_toPort_at (s : State) (keep : Reservation → Bool) (q : PortId) :
    (s.keepReservations keep).toPort q = s.toPort q := rfl

@[simp] theorem State.keepReservations_waitingWalk_at (s : State) (keep : Reservation → Bool) (q : PortId) :
    (s.keepReservations keep).waitingWalk q = s.waitingWalk q := rfl

@[simp] theorem State.keepReservations_requestOf_at (s : State) (keep : Reservation → Bool) (q : PortId) :
    (s.keepReservations keep).requestOf q = s.requestOf q := rfl

@[simp] theorem State.keepReservations_reservation_at (s : State) (keep : Reservation → Bool) (q : PortId) :
    (s.keepReservations keep).reservation q = (s.reservation q).filter keep := by
  simp [State.reservation]

@[simp] theorem State.modifyEngine_port_at (s : State) (f : Engine → Engine) (q : PortId) :
    (s.modifyEngine f).port q = s.port q := rfl

@[simp] theorem State.modifyEngine_record_at (s : State) (f : Engine → Engine) (v : WindowId) :
    (s.modifyEngine f).record v = s.record v := rfl

@[simp] theorem State.modifyEngine_toTable_at (s : State) (f : Engine → Engine) (q : PortId) :
    (s.modifyEngine f).toTable q = s.toTable q := rfl

@[simp] theorem State.modifyEngine_toPort_at (s : State) (f : Engine → Engine) (q : PortId) :
    (s.modifyEngine f).toPort q = s.toPort q := rfl

@[simp] theorem State.modifyEngine_waitingWalk_at (s : State) (f : Engine → Engine) (q : PortId) :
    (s.modifyEngine f).waitingWalk q = s.waitingWalk q := rfl

@[simp] theorem State.modifyEngine_requestOf_at (s : State) (f : Engine → Engine) (q : PortId) :
    (s.modifyEngine f).requestOf q = s.requestOf q := rfl

@[simp] theorem State.modifyEngine_reservation_at (s : State) (f : Engine → Engine) (q : PortId) :
    (s.modifyEngine f).reservation q = s.reservation q := rfl

/-! ### The updates of one port, as changes of its unit -/

@[simp] theorem State.modifyPort_modifyPort (s : State) (p : PortId) (f g : PortUnit → PortUnit) :
    (s.modifyPort p f).modifyPort p g = s.modifyPort p fun u => g (f u) := by
  simp [State.modifyPort, State.setPort, State.port]

@[simp] theorem State.setCurrent_eq (s : State) (p : PortId) (c : CurrentAccess) :
    s.setCurrent p c = s.modifyPort p fun u => { u with current := c } := rfl

@[simp] theorem State.setStaleWalk_eq (s : State) (p : PortId) (b : Bool) :
    s.setStaleWalk p b = s.modifyPort p fun u => { u with staleWalk := b } := rfl

@[simp] theorem State.setLookaside_eq (s : State) (p : PortId) (l : Lookaside) :
    s.setLookaside p l = s.modifyPort p fun u => { u with lookaside := l } := rfl

@[simp] theorem State.modifySlot_eq (s : State) (p : PortId) (f : Slot → Slot) :
    s.modifySlot p f = s.modifyPort p fun u => { u with slot := f u.slot } := rfl

@[simp] theorem State.answer_eq (s : State) (p : PortId) (a : Answer) :
    s.answer p a = s.modifyPort p fun u => { u with answer := some a } := rfl

@[simp] theorem State.breakGranule_eq (s : State) (a : SysAddr) :
    s.breakGranule a = s.keepReservations fun r => r.granule != granuleOf a := rfl

@[simp] theorem State.breakWindow_eq (s : State) (w : WindowId) :
    s.breakWindow w = s.keepReservations fun r => r.window != w := rfl

end Sys2Proof.Machine
end

