-- ==== Sys2Proof/Laws/Frames.lean ====
section
/-! SUPPORT. For each shared operation of the channels, the port units and the engine, what it leaves as it was. -/

namespace Sys2Proof.Machine

/-! ### Channels and requests -/

@[simp] theorem State.settleWalk_frame (s : State) (p : PortId) :
    (s.settleWalk p).ports = s.ports ∧
    (s.settleWalk p).links.toPort = s.links.toPort ∧
    (s.settleWalk p).links.engineToTable = s.links.engineToTable ∧
    (s.settleWalk p).links.reports = s.links.reports ∧
    (s.settleWalk p).links.requests = s.links.requests ∧
    (s.settleWalk p).table.records = s.table.records ∧
    (s.settleWalk p).table.offlineView = s.table.offlineView ∧
    (s.settleWalk p).table.walkOrder = s.table.walkOrder ∧
    (s.settleWalk p).table.requestOrder = s.table.requestOrder ∧
    (s.settleWalk p).engine = s.engine ∧
    (s.settleWalk p).monitor = s.monitor ∧
    (s.settleWalk p).config = s.config ∧
    (s.settleWalk p).pending = s.pending := by
  unfold State.settleWalk
  (repeat' split) <;> simp

/-- A message joins what port p has sent (R76). -/
@[simp] theorem State.sendToTable_frame (s : State) (p : PortId) (m : PortMessage) :
    (s.sendToTable p m).ports = s.ports ∧
    (s.sendToTable p m).links.toPort = s.links.toPort ∧
    (s.sendToTable p m).links.engineToTable = s.links.engineToTable ∧
    (s.sendToTable p m).links.reports = s.links.reports ∧
    (s.sendToTable p m).links.requests = s.links.requests ∧
    (s.sendToTable p m).table.records = s.table.records ∧
    (s.sendToTable p m).table.offlineView = s.table.offlineView ∧
    (s.sendToTable p m).table.walkOrder = s.table.walkOrder ∧
    (s.sendToTable p m).table.requestOrder = s.table.requestOrder ∧
    (s.sendToTable p m).engine = s.engine ∧
    (s.sendToTable p m).monitor = s.monitor ∧
    (s.sendToTable p m).config = s.config ∧
    (s.sendToTable p m).pending = s.pending := by
  simp [State.sendToTable]

/-- The first message of a channel is taken (R76). -/
@[simp] theorem State.takeFromPort_frame (s : State) (p : PortId) (l : List PortMessage) :
    (s.takeFromPort p l).ports = s.ports ∧
    (s.takeFromPort p l).links.toPort = s.links.toPort ∧
    (s.takeFromPort p l).links.engineToTable = s.links.engineToTable ∧
    (s.takeFromPort p l).links.reports = s.links.reports ∧
    (s.takeFromPort p l).links.requests = s.links.requests ∧
    (s.takeFromPort p l).table.records = s.table.records ∧
    (s.takeFromPort p l).table.offlineView = s.table.offlineView ∧
    (s.takeFromPort p l).table.walkOrder = s.table.walkOrder ∧
    (s.takeFromPort p l).table.requestOrder = s.table.requestOrder ∧
    (s.takeFromPort p l).engine = s.engine ∧
    (s.takeFromPort p l).monitor = s.monitor ∧
    (s.takeFromPort p l).config = s.config ∧
    (s.takeFromPort p l).pending = s.pending := by
  simp [State.takeFromPort]

/-- A message joins what the table has sent to port p (R76). -/
@[simp] theorem State.sendToPort_frame (s : State) (p : PortId) (m : TableMessage) :
    (s.sendToPort p m).ports = s.ports ∧
    (s.sendToPort p m).links.toTable = s.links.toTable ∧
    (s.sendToPort p m).links.engineToTable = s.links.engineToTable ∧
    (s.sendToPort p m).links.reports = s.links.reports ∧
    (s.sendToPort p m).links.requests = s.links.requests ∧
    (s.sendToPort p m).table = s.table ∧
    (s.sendToPort p m).engine = s.engine ∧
    (s.sendToPort p m).monitor = s.monitor ∧
    (s.sendToPort p m).config = s.config ∧
    (s.sendToPort p m).pending = s.pending := by
  simp [State.sendToPort]

/-- The table sends to several ports in one event (R53). -/
@[simp] theorem State.sendToPorts_frame (s : State) (ps : List PortId) (m : TableMessage) :
    (s.sendToPorts ps m).ports = s.ports ∧
    (s.sendToPorts ps m).links.toTable = s.links.toTable ∧
    (s.sendToPorts ps m).links.engineToTable = s.links.engineToTable ∧
    (s.sendToPorts ps m).links.reports = s.links.reports ∧
    (s.sendToPorts ps m).links.requests = s.links.requests ∧
    (s.sendToPorts ps m).table = s.table ∧
    (s.sendToPorts ps m).engine = s.engine ∧
    (s.sendToPorts ps m).monitor = s.monitor ∧
    (s.sendToPorts ps m).config = s.config ∧
    (s.sendToPorts ps m).pending = s.pending := by
  induction ps generalizing s with
  | nil => simp [State.sendToPorts]
  | cons p ps ih =>
    have := ih (s.sendToPort p m)
    simpa [State.sendToPorts] using this

/-- A destination takes port p's request (R175, R186). -/
@[simp] theorem State.requestTaken_frame (s : State) (p : PortId) :
    (s.requestTaken p).links.toTable = s.links.toTable ∧
    (s.requestTaken p).links.toPort = s.links.toPort ∧
    (s.requestTaken p).links.engineToTable = s.links.engineToTable ∧
    (s.requestTaken p).links.reports = s.links.reports ∧
    (s.requestTaken p).table = s.table ∧
    (s.requestTaken p).engine = s.engine ∧
    (s.requestTaken p).monitor = s.monitor ∧
    (s.requestTaken p).config = s.config ∧
    (s.requestTaken p).pending = s.pending := by
  simp [State.requestTaken]

/-! ### Slots and fault records -/

/-- A result reaches only a slot (R180). -/
@[simp] theorem State.postResult_frame (s : State) (p : PortId) (n : RequestNumber) (r : Result) :
    (s.postResult p n r).links = s.links ∧
    (s.postResult p n r).table = s.table ∧
    (s.postResult p n r).engine = s.engine ∧
    (s.postResult p n r).monitor = s.monitor ∧
    (s.postResult p n r).config = s.config ∧
    (s.postResult p n r).pending = s.pending := by
  unfold State.postResult
  (repeat' split) <;> simp

/-- A clearing of a slot (R175). -/
@[simp] theorem State.clearSlot_frame (s : State) (p : PortId) :
    (s.clearSlot p).links = s.links ∧
    (s.clearSlot p).table = s.table ∧
    (s.clearSlot p).engine = s.engine ∧
    (s.clearSlot p).monitor = s.monitor ∧
    (s.clearSlot p).config = s.config ∧
    (s.clearSlot p).pending = s.pending := by
  simp [State.clearSlot]

/-- A fault reaches only its port (R149). -/
@[simp] theorem State.offerFault_frame (s : State) (p : PortId) (f : FaultInfo) :
    (s.offerFault p f).links = s.links ∧
    (s.offerFault p f).table = s.table ∧
    (s.offerFault p f).engine = s.engine ∧
    (s.offerFault p f).monitor = s.monitor ∧
    (s.offerFault p f).config = s.config ∧
    (s.offerFault p f).pending = s.pending := by
  simp [State.offerFault]

/-- An orphaned fault changes nothing at its origin port (R161). -/
@[simp] theorem State.offerDeviceFault_frame (s : State) (f : FaultInfo) (p : PortId) :
    (s.offerDeviceFault f p).ports = s.ports ∧
    (s.offerDeviceFault f p).links = s.links ∧
    (s.offerDeviceFault f p).table = s.table ∧
    (s.offerDeviceFault f p).engine = s.engine ∧
    (s.offerDeviceFault f p).monitor = s.monitor ∧
    (s.offerDeviceFault f p).pending = s.pending := by
  unfold State.offerDeviceFault
  (repeat' split) <;> simp

/-- The routing of a deferred fault (R129). -/
@[simp] theorem State.routeDeferred_frame (s : State) (e : StoreEntry) (f : FaultInfo) :
    (s.routeDeferred e f).links = s.links ∧
    (s.routeDeferred e f).table = s.table ∧
    (s.routeDeferred e f).engine = s.engine ∧
    (s.routeDeferred e f).monitor = s.monitor ∧
    (s.routeDeferred e f).pending = s.pending := by
  unfold State.routeDeferred
  (repeat' split) <;> simp

/-! ### Port units -/

@[simp] theorem State.postOffline_frame (s : State) (p : PortId) :
    (s.postOffline p).links = s.links ∧
    (s.postOffline p).table = s.table ∧
    (s.postOffline p).engine = s.engine ∧
    (s.postOffline p).monitor = s.monitor ∧
    (s.postOffline p).config = s.config ∧
    (s.postOffline p).pending = s.pending := by
  unfold State.postOffline
  dsimp only
  (repeat' split) <;> simp

/-- Entry into OFFLINE (R171). -/
@[simp] theorem State.enterOffline_frame (s : State) (p : PortId) :
    (s.enterOffline p).links.toPort = s.links.toPort ∧
    (s.enterOffline p).links.engineToTable = s.links.engineToTable ∧
    (s.enterOffline p).links.reports = s.links.reports ∧
    (s.enterOffline p).links.requests = s.links.requests ∧
    (s.enterOffline p).table.records = s.table.records ∧
    (s.enterOffline p).table.offlineView = s.table.offlineView ∧
    (s.enterOffline p).table.walkOrder = s.table.walkOrder ∧
    (s.enterOffline p).table.requestOrder = s.table.requestOrder ∧
    (s.enterOffline p).engine = s.engine ∧
    (s.enterOffline p).monitor = s.monitor ∧
    (s.enterOffline p).config = s.config ∧
    (s.enterOffline p).pending = s.pending := by
  simp [State.enterOffline]

/-- The quiesce condition (R170). -/
@[simp] theorem State.evaluateQuiesce_frame (s : State) (p : PortId) :
    (s.evaluateQuiesce p).links.toPort = s.links.toPort ∧
    (s.evaluateQuiesce p).links.engineToTable = s.links.engineToTable ∧
    (s.evaluateQuiesce p).links.reports = s.links.reports ∧
    (s.evaluateQuiesce p).links.requests = s.links.requests ∧
    (s.evaluateQuiesce p).table.records = s.table.records ∧
    (s.evaluateQuiesce p).table.offlineView = s.table.offlineView ∧
    (s.evaluateQuiesce p).table.walkOrder = s.table.walkOrder ∧
    (s.evaluateQuiesce p).table.requestOrder = s.table.requestOrder ∧
    (s.evaluateQuiesce p).engine = s.engine ∧
    (s.evaluateQuiesce p).monitor = s.monitor ∧
    (s.evaluateQuiesce p).config = s.config ∧
    (s.evaluateQuiesce p).pending = s.pending := by
  unfold State.evaluateQuiesce
  (repeat' split) <;> simp

/-- The ending of a current access at its port (R26). -/
@[simp] theorem State.endCurrent_frame (s : State) (p : PortId) (a : Answer) (f : Option FaultInfo) :
    (s.endCurrent p a f).links.toPort = s.links.toPort ∧
    (s.endCurrent p a f).links.engineToTable = s.links.engineToTable ∧
    (s.endCurrent p a f).links.reports = s.links.reports ∧
    (s.endCurrent p a f).links.requests = s.links.requests ∧
    (s.endCurrent p a f).table.records = s.table.records ∧
    (s.endCurrent p a f).table.offlineView = s.table.offlineView ∧
    (s.endCurrent p a f).table.walkOrder = s.table.walkOrder ∧
    (s.endCurrent p a f).table.requestOrder = s.table.requestOrder ∧
    (s.endCurrent p a f).engine = s.engine ∧
    (s.endCurrent p a f).monitor = s.monitor ∧
    (s.endCurrent p a f).config = s.config ∧
    (s.endCurrent p a f).pending = s.pending := by
  unfold State.endCurrent
  dsimp only
  (repeat' split) <;> simp

/-- A match fault sends no addition and changes no reservation (R31). -/
@[simp] theorem State.failMatch_frame (s : State) (p : PortId) (h : AccessHead) (k : FaultKind) (w : Option WindowId) :
    (s.failMatch p h k w).links.toPort = s.links.toPort ∧
    (s.failMatch p h k w).links.engineToTable = s.links.engineToTable ∧
    (s.failMatch p h k w).links.reports = s.links.reports ∧
    (s.failMatch p h k w).links.requests = s.links.requests ∧
    (s.failMatch p h k w).table.records = s.table.records ∧
    (s.failMatch p h k w).table.offlineView = s.table.offlineView ∧
    (s.failMatch p h k w).table.walkOrder = s.table.walkOrder ∧
    (s.failMatch p h k w).table.requestOrder = s.table.requestOrder ∧
    (s.failMatch p h k w).engine = s.engine ∧
    (s.failMatch p h k w).monitor = s.monitor ∧
    (s.failMatch p h k w).config = s.config ∧
    (s.failMatch p h k w).pending = s.pending := by
  simp [State.failMatch]

/-- An access goes to WALKING (R37). -/
@[simp] theorem State.startWalk_frame (s : State) (p : PortId) (a : Access) :
    (s.startWalk p a).links.toPort = s.links.toPort ∧
    (s.startWalk p a).links.engineToTable = s.links.engineToTable ∧
    (s.startWalk p a).links.reports = s.links.reports ∧
    (s.startWalk p a).links.requests = s.links.requests ∧
    (s.startWalk p a).table.records = s.table.records ∧
    (s.startWalk p a).table.offlineView = s.table.offlineView ∧
    (s.startWalk p a).table.walkOrder = s.table.walkOrder ∧
    (s.startWalk p a).table.requestOrder = s.table.requestOrder ∧
    (s.startWalk p a).engine = s.engine ∧
    (s.startWalk p a).monitor = s.monitor ∧
    (s.startWalk p a).config = s.config ∧
    (s.startWalk p a).pending = s.pending := by
  unfold State.startWalk
  (repeat' split) <;> simp

/-- A discarded walk answer (R45). -/
@[simp] theorem State.discardAnswer_frame (s : State) (p : PortId) :
    (s.discardAnswer p).links.toPort = s.links.toPort ∧
    (s.discardAnswer p).links.engineToTable = s.links.engineToTable ∧
    (s.discardAnswer p).links.reports = s.links.reports ∧
    (s.discardAnswer p).links.requests = s.links.requests ∧
    (s.discardAnswer p).table.records = s.table.records ∧
    (s.discardAnswer p).table.offlineView = s.table.offlineView ∧
    (s.discardAnswer p).table.walkOrder = s.table.walkOrder ∧
    (s.discardAnswer p).table.requestOrder = s.table.requestOrder ∧
    (s.discardAnswer p).engine = s.engine ∧
    (s.discardAnswer p).monitor = s.monitor ∧
    (s.discardAnswer p).config = s.config ∧
    (s.discardAnswer p).pending = s.pending := by
  unfold State.discardAnswer
  dsimp only
  (repeat' split) <;> simp

/-- A linked read's admission (R136). -/
@[simp] theorem State.dropForLinkedRead_frame (s : State) (p : PortId) (h : AccessHead) :
    (s.dropForLinkedRead p h).ports = s.ports ∧
    (s.dropForLinkedRead p h).links = s.links ∧
    (s.dropForLinkedRead p h).table = s.table ∧
    (s.dropForLinkedRead p h).engine = s.engine ∧
    (s.dropForLinkedRead p h).monitor.permission = s.monitor.permission ∧
    (s.dropForLinkedRead p h).monitor.linkEpoch = s.monitor.linkEpoch ∧
    (s.dropForLinkedRead p h).config = s.config ∧
    (s.dropForLinkedRead p h).pending = s.pending := by
  unfold State.dropForLinkedRead
  (repeat' split) <;> simp

/-- A parked access (R41). -/
@[simp] theorem State.park_frame (s : State) (p : PortId) (a : Access) (w : WindowId) :
    (s.park p a w).links = s.links ∧
    (s.park p a w).table = s.table ∧
    (s.park p a w).engine = s.engine ∧
    (s.park p a w).monitor = s.monitor ∧
    (s.park p a w).config = s.config ∧
    (s.park p a w).pending = s.pending := by
  simp [State.park]

/-! ### The engine -/

@[simp] theorem State.presentPart_frame (s : State) :
    (s.presentPart).ports = s.ports ∧
    (s.presentPart).links = s.links ∧
    (s.presentPart).table = s.table ∧
    (s.presentPart).monitor = s.monitor ∧
    (s.presentPart).config = s.config ∧
    (s.presentPart).pending = s.pending := by
  simp [State.presentPart]

@[simp] theorem State.startPart_frame (s : State) :
    (s.startPart).ports = s.ports ∧
    (s.startPart).links = s.links ∧
    (s.startPart).table = s.table ∧
    (s.startPart).monitor = s.monitor ∧
    (s.startPart).config = s.config ∧
    (s.startPart).pending = s.pending := by
  simp [State.startPart]

@[simp] theorem State.seizeBus_frame (s : State) (p : PortId) (r : BusAccess) :
    (s.seizeBus p r).ports = s.ports ∧
    (s.seizeBus p r).links = s.links ∧
    (s.seizeBus p r).table = s.table ∧
    (s.seizeBus p r).monitor = s.monitor ∧
    (s.seizeBus p r).config = s.config ∧
    (s.seizeBus p r).pending = s.pending := by
  simp [State.seizeBus]

/-- The external master's grant changes only the engine (R116). -/
@[simp] theorem State.grantExternal_frame (s : State) :
    (s.grantExternal).ports = s.ports ∧
    (s.grantExternal).links = s.links ∧
    (s.grantExternal).table = s.table ∧
    (s.grantExternal).monitor = s.monitor ∧
    (s.grantExternal).config = s.config ∧
    (s.grantExternal).pending = s.pending := by
  simp [State.grantExternal]

/-- The finish of a non-posted access (R112). -/
@[simp] theorem State.finishAccess_frame (s : State) (r : BusAccess) (a : Answer) (f : Option FaultInfo) :
    (s.finishAccess r a f).links.toPort = s.links.toPort ∧
    (s.finishAccess r a f).links.reports = s.links.reports ∧
    (s.finishAccess r a f).links.requests = s.links.requests ∧
    (s.finishAccess r a f).table.records = s.table.records ∧
    (s.finishAccess r a f).table.offlineView = s.table.offlineView ∧
    (s.finishAccess r a f).table.walkOrder = s.table.walkOrder ∧
    (s.finishAccess r a f).table.requestOrder = s.table.requestOrder ∧
    (s.finishAccess r a f).monitor = s.monitor ∧
    (s.finishAccess r a f).config = s.config ∧
    (s.finishAccess r a f).pending = s.pending := by
  simp [State.finishAccess]

end Sys2Proof.Machine
end

