-- ==== Sys2Proof/Laws/Engine.lean ====
section
/-! SUPPORT. What the downstream arbiter's choice and the finish of an access or entry can do: an induction over the
choices of one event, and what all of them leave as it was. -/

namespace Sys2Proof.Machine

/-- The state that a grant comes to. -/
def GrantResult.state : GrantResult → State
  | .started s => s
  | .linkFailed s => s

/-- The blocks' state that no choice of the arbiter touches. -/
structure State.SameOffBus (s t : State) : Prop where
  toPort : t.links.toPort = s.links.toPort
  reports : t.links.reports = s.links.reports
  requests : t.links.requests = s.links.requests
  records : t.table.records = s.table.records
  offlineView : t.table.offlineView = s.table.offlineView
  walkOrder : t.table.walkOrder = s.table.walkOrder
  requestOrder : t.table.requestOrder = s.table.requestOrder
  permission : t.monitor.permission = s.monitor.permission
  linkEpoch : t.monitor.linkEpoch = s.monitor.linkEpoch
  config : t.config = s.config
  pending : t.pending = s.pending

theorem State.SameOffBus.refl (s : State) : s.SameOffBus s := by
  constructor <;> rfl

theorem State.SameOffBus.trans {s t u : State} (h : s.SameOffBus t) (k : t.SameOffBus u) : s.SameOffBus u := by
  cases h; cases k; constructor <;> simp_all

/-- A fact that every grant of a chosen port and the grant of the external master keep is kept by all the choices of one
event. -/
theorem State.arbitrate_induction {P : State → Prop} (ext : ∀ s, P s → P s.grantExternal)
    (port : ∀ s p, s.chosenPort = some p → P s → P (s.grant p).state) :
    ∀ n s, P s → P (State.arbitrate n s)
  | 0, _, h => h
  | n + 1, s, h => by
    unfold State.arbitrate
    split
    · exact ext s h
    · split
      · exact h
      · rename_i p hp
        have hg := port s p hp h
        split <;> rename_i t ht <;> rw [ht] at hg
        · exact hg
        · exact State.arbitrate_induction ext port n t hg

/-- The same for the choice made where the bus is free. -/
theorem State.choose_induction {P : State → Prop} (ext : ∀ s, P s → P s.grantExternal)
    (port : ∀ s p, s.chosenPort = some p → P s → P (s.grant p).state) (s : State) (h : P s) : P s.choose := by
  unfold State.choose
  split
  · exact State.arbitrate_induction ext port 7 s h
  · exact h

/-- A port is chosen only where it is eligible. -/
theorem State.chosenPort_eligible {s : State} {p : PortId} (h : s.chosenPort = some p) : s.eligible p = true := by
  have := List.find?_some h
  simp_all

/-- The examination of a granted access: a CONDITIONAL_WRITE with a reservation consumes it and starts its part, one
without finishes LINK_FAILED, and any other access starts its part (R113, R139). -/
theorem State.examine_cases (s : State) (r : BusAccess) (start : State → State) :
    (r.kind = .conditionalWrite ∧ s.reservedOn r.origin r.sysAddr = true ∧
      s.examine r start = .started (start (s.setReservation r.origin none))) ∨
    (r.kind = .conditionalWrite ∧ s.reservedOn r.origin r.sysAddr = false ∧
      s.examine r start = .linkFailed (s.finishAccess r .linkFailed none)) ∨
    (r.kind ≠ .conditionalWrite ∧ s.examine r start = .started (start s)) := by
  unfold State.examine
  by_cases hk : r.kind = .conditionalWrite
  · by_cases hr : s.reservedOn r.origin r.sysAddr = true
    · simp [hk, hr]
    · simp [hk, Bool.not_eq_true _ ▸ hr]
  · simp [hk]

theorem State.examine_off_bus (s : State) (r : BusAccess) (start : State → State)
    (h : ∀ t : State, t.SameOffBus (start t)) : s.SameOffBus (s.examine r start).state := by
  rcases s.examine_cases r start with ⟨-, -, e⟩ | ⟨-, -, e⟩ | ⟨-, e⟩ <;> rw [e]
  · exact State.SameOffBus.trans (t := s.setReservation r.origin none) (by constructor <;> simp) (h _)
  · constructor <;> simp [GrantResult.state]
  · exact h s

theorem State.presentPart_off_bus (s : State) : s.SameOffBus s.presentPart := by
  constructor <;> simp

theorem State.startPart_off_bus (s : State) : s.SameOffBus s.startPart := by
  constructor <;> simp

theorem State.grant_off_bus (s : State) (p : PortId) : s.SameOffBus (s.grant p).state := by
  unfold State.grant
  split
  · exact State.SameOffBus.trans (t := s.seizeBus p _) (by constructor <;> simp)
      (State.examine_off_bus _ _ _ State.presentPart_off_bus)
  · split
    · exact State.SameOffBus.trans (t := s.seizeBus p _) (by constructor <;> simp)
        (State.examine_off_bus _ _ _ State.startPart_off_bus)
    · refine State.SameOffBus.trans ?_ (State.examine_off_bus _ _ _ State.startPart_off_bus)
      constructor <;> simp
    · exact State.SameOffBus.refl s

/-- The choices of one event change only ports, the engine, reservations, and what is sent to the table. -/
theorem State.choose_off_bus (s : State) : s.SameOffBus s.choose :=
  State.choose_induction (P := fun t => s.SameOffBus t)
    (fun t h => h.trans (by constructor <;> simp))
    (fun t p _ h => h.trans (t.grant_off_bus p)) s (State.SameOffBus.refl s)

@[simp] theorem State.choose_frame (s : State) :
    s.choose.links.toPort = s.links.toPort ∧
    s.choose.links.reports = s.links.reports ∧
    s.choose.links.requests = s.links.requests ∧
    s.choose.table.records = s.table.records ∧
    s.choose.table.offlineView = s.table.offlineView ∧
    s.choose.table.walkOrder = s.table.walkOrder ∧
    s.choose.table.requestOrder = s.table.requestOrder ∧
    s.choose.monitor.permission = s.monitor.permission ∧
    s.choose.monitor.linkEpoch = s.monitor.linkEpoch ∧
    s.choose.config = s.config ∧
    s.choose.pending = s.pending := by
  have h := s.choose_off_bus
  exact ⟨h.toPort, h.reports, h.requests, h.records, h.offlineView, h.walkOrder, h.requestOrder, h.permission,
    h.linkEpoch, h.config, h.pending⟩

/-- An accepted posted write changes its port, the store, and what the port sends (R121). -/
@[simp] theorem State.accept_frame (s : State) (p : PortId) (a : Access) (adm : Admission) :
    (s.accept p a adm).links.toPort = s.links.toPort ∧
    (s.accept p a adm).links.engineToTable = s.links.engineToTable ∧
    (s.accept p a adm).links.reports = s.links.reports ∧
    (s.accept p a adm).links.requests = s.links.requests ∧
    (s.accept p a adm).table.records = s.table.records ∧
    (s.accept p a adm).table.offlineView = s.table.offlineView ∧
    (s.accept p a adm).table.walkOrder = s.table.walkOrder ∧
    (s.accept p a adm).table.requestOrder = s.table.requestOrder ∧
    (s.accept p a adm).monitor = s.monitor ∧
    (s.accept p a adm).config = s.config ∧
    (s.accept p a adm).pending = s.pending := by
  simp [State.accept]

@[simp] theorem State.admitWaiter_frame (s : State) :
    s.admitWaiter.links.toPort = s.links.toPort ∧
    s.admitWaiter.links.engineToTable = s.links.engineToTable ∧
    s.admitWaiter.links.reports = s.links.reports ∧
    s.admitWaiter.links.requests = s.links.requests ∧
    s.admitWaiter.table.records = s.table.records ∧
    s.admitWaiter.table.offlineView = s.table.offlineView ∧
    s.admitWaiter.table.walkOrder = s.table.walkOrder ∧
    s.admitWaiter.table.requestOrder = s.table.requestOrder ∧
    s.admitWaiter.monitor = s.monitor ∧
    s.admitWaiter.config = s.config ∧
    s.admitWaiter.pending = s.pending := by
  unfold State.admitWaiter
  split
  · simp
  · split <;> simp

/-- An offer of an admitted access changes no record and no configuration (R34, R120). -/
@[simp] theorem State.offer_frame (s : State) (p : PortId) (a : Access) (adm : Admission) :
    (s.offer p a adm).links.toPort = s.links.toPort ∧
    (s.offer p a adm).links.reports = s.links.reports ∧
    (s.offer p a adm).links.requests = s.links.requests ∧
    (s.offer p a adm).table.records = s.table.records ∧
    (s.offer p a adm).table.offlineView = s.table.offlineView ∧
    (s.offer p a adm).table.walkOrder = s.table.walkOrder ∧
    (s.offer p a adm).table.requestOrder = s.table.requestOrder ∧
    (s.offer p a adm).monitor.permission = s.monitor.permission ∧
    (s.offer p a adm).monitor.linkEpoch = s.monitor.linkEpoch ∧
    (s.offer p a adm).config = s.config ∧
    (s.offer p a adm).pending = s.pending := by
  unfold State.offer
  (repeat' split) <;> simp

/-- A store entry's finish (R127). -/
@[simp] theorem State.finishEntry_frame (s : State) (r : BusAccess) :
    (s.finishEntry r).links.toPort = s.links.toPort ∧
    (s.finishEntry r).links.requests = s.links.requests ∧
    (s.finishEntry r).table.records = s.table.records ∧
    (s.finishEntry r).table.offlineView = s.table.offlineView ∧
    (s.finishEntry r).table.walkOrder = s.table.walkOrder ∧
    (s.finishEntry r).table.requestOrder = s.table.requestOrder ∧
    (s.finishEntry r).monitor.permission = s.monitor.permission ∧
    (s.finishEntry r).monitor.linkEpoch = s.monitor.linkEpoch ∧
    (s.finishEntry r).config = s.config ∧
    (s.finishEntry r).pending = s.pending ∧
    (s.finishEntry r).links.reports = vput s.links.reports r.origin (s.links.reports.get r.origin + 1) := by
  simp [State.finishEntry]

@[simp] theorem State.endAbandoned_frame (s : State) (r : BusAccess) :
    (s.endAbandoned r).links.toPort = s.links.toPort ∧
    (s.endAbandoned r).links.reports = s.links.reports ∧
    (s.endAbandoned r).links.requests = s.links.requests ∧
    (s.endAbandoned r).table.records = s.table.records ∧
    (s.endAbandoned r).table.offlineView = s.table.offlineView ∧
    (s.endAbandoned r).table.walkOrder = s.table.walkOrder ∧
    (s.endAbandoned r).table.requestOrder = s.table.requestOrder ∧
    (s.endAbandoned r).monitor.permission = s.monitor.permission ∧
    (s.endAbandoned r).monitor.linkEpoch = s.monitor.linkEpoch ∧
    (s.endAbandoned r).config = s.config ∧
    (s.endAbandoned r).pending = s.pending := by
  simp [State.endAbandoned]

/-- The failure of an access or entry (R111, R128): the device fault record may take an orphaned fault. -/
@[simp] theorem State.failAccess_frame (s : State) (r : BusAccess) (k : FaultKind) :
    (s.failAccess r k).links.toPort = s.links.toPort ∧
    (s.failAccess r k).links.requests = s.links.requests ∧
    (s.failAccess r k).table.records = s.table.records ∧
    (s.failAccess r k).table.offlineView = s.table.offlineView ∧
    (s.failAccess r k).table.walkOrder = s.table.walkOrder ∧
    (s.failAccess r k).table.requestOrder = s.table.requestOrder ∧
    (s.failAccess r k).monitor.permission = s.monitor.permission ∧
    (s.failAccess r k).monitor.linkEpoch = s.monitor.linkEpoch ∧
    (s.failAccess r k).pending = s.pending := by
  unfold State.failAccess
  (repeat' split) <;> simp

@[simp] theorem State.reportLinkedRead_frame (s : State) (p : PortId) (a : SysAddr) (w : WindowId) (e : Epoch) :
    (s.reportLinkedRead p a w e).ports = s.ports ∧
    (s.reportLinkedRead p a w e).links = s.links ∧
    (s.reportLinkedRead p a w e).table = s.table ∧
    (s.reportLinkedRead p a w e).engine = s.engine ∧
    (s.reportLinkedRead p a w e).monitor.permission = s.monitor.permission ∧
    (s.reportLinkedRead p a w e).monitor.linkEpoch = s.monitor.linkEpoch ∧
    (s.reportLinkedRead p a w e).config = s.config ∧
    (s.reportLinkedRead p a w e).pending = s.pending := by
  unfold State.reportLinkedRead
  split <;> simp

/-- The success of an access or entry (R112, R127). -/
@[simp] theorem State.completeAccess_frame (s : State) (r : BusAccess) :
    (s.completeAccess r).links.toPort = s.links.toPort ∧
    (s.completeAccess r).links.requests = s.links.requests ∧
    (s.completeAccess r).table.records = s.table.records ∧
    (s.completeAccess r).table.offlineView = s.table.offlineView ∧
    (s.completeAccess r).table.walkOrder = s.table.walkOrder ∧
    (s.completeAccess r).table.requestOrder = s.table.requestOrder ∧
    (s.completeAccess r).monitor.permission = s.monitor.permission ∧
    (s.completeAccess r).monitor.linkEpoch = s.monitor.linkEpoch ∧
    (s.completeAccess r).config = s.config ∧
    (s.completeAccess r).pending = s.pending := by
  unfold State.completeAccess
  dsimp only
  (repeat' split) <;> simp

@[simp] theorem State.reportPart_frame (s : State) (part : BusPart) :
    (s.reportPart part).ports = s.ports ∧
    (s.reportPart part).links = s.links ∧
    (s.reportPart part).table = s.table ∧
    (s.reportPart part).engine = s.engine ∧
    (s.reportPart part).monitor.permission = s.monitor.permission ∧
    (s.reportPart part).monitor.linkEpoch = s.monitor.linkEpoch ∧
    (s.reportPart part).config = s.config ∧
    (s.reportPart part).pending = s.pending := by
  unfold State.reportPart
  split <;> simp

@[simp] theorem State.keepAccess_frame (s : State) (r : BusAccess) :
    (s.keepAccess r).ports = s.ports ∧
    (s.keepAccess r).links = s.links ∧
    (s.keepAccess r).table = s.table ∧
    (s.keepAccess r).monitor = s.monitor ∧
    (s.keepAccess r).config = s.config ∧
    (s.keepAccess r).pending = s.pending := by
  simp [State.keepAccess]

end Sys2Proof.Machine
end

