-- ==== Sys2Proof/Laws/Vocabulary.lean ====
section
/-! SUPPORT. What the shared operations do, said once in the vocabulary of Safety.lean: results at slots, requests taken,
messages sent and taken, the evaluation of a pending operation, faults offered. -/

namespace Sys2Proof.Machine

/-! ### Equal states -/

/-- Two states are equal when their blocks and queues are. -/
theorem State.eq_of_blocks {s t : State} (hp : s.ports = t.ports) (hl : s.links = t.links) (ht : s.table = t.table)
    (he : s.engine = t.engine) (hm : s.monitor = t.monitor) (hc : s.config = t.config) (hq : s.pending = t.pending) :
    s = t := by
  cases s; cases t; simp_all

theorem Links.eq_of_fields {l m : Links} (h1 : l.toTable = m.toTable) (h2 : l.toPort = m.toPort)
    (h3 : l.engineToTable = m.engineToTable) (h4 : l.reports = m.reports) (h5 : l.requests = m.requests) : l = m := by
  cases l; cases m; simp_all

theorem Table.eq_of_fields {x y : Table} (h1 : x.records = y.records) (h2 : x.offlineView = y.offlineView)
    (h3 : x.walks = y.walks) (h4 : x.walkOrder = y.walkOrder) (h5 : x.requestOrder = y.requestOrder) : x = y := by
  cases x; cases y; simp_all

/-- The ports of a state, replaced by vectors with the same units. -/
theorem State.ports_eq_of_port {s t : State} (h : ∀ p, s.port p = t.port p) : s.ports = t.ports :=
  vector_ext_get h

/-- A change of one port's unit, as a state. -/
theorem State.modifyPort_eq (s : State) (p : PortId) (f : PortUnit → PortUnit) :
    s.modifyPort p f = { s with ports := vput s.ports p (f (s.port p)) } := rfl

/-! ### Addresses -/

theorem inAperture_iff (a : LocalAddr) : inAperture a = true ↔ 0xFFFFF000 ≤ a.toNat :=
  decide_eq_true_iff

theorem isApertureWord_iff (a : Access) : a.toAccessHead.isApertureWord = true ↔ a.IsApertureWord := by
  simp only [AccessHead.isApertureWord, Access.IsApertureWord, Bool.and_eq_true, Bool.or_eq_true, beq_iff_eq,
    inAperture_iff]
  tauto

theorem aligned_iff (a : Access) : a.toAccessHead.aligned = true ↔ ¬ a.Misaligned := by
  simp only [AccessHead.aligned, Access.Misaligned, Bool.and_eq_true, Bool.not_eq_true', beq_iff_eq, bne_iff_ne,
    ← Bool.not_eq_true, inAperture_iff]
  tauto

/-- The address lies in the window's local range (R1, R17). -/
theorem contains_iff (t : Terms) (a : LocalAddr) :
    t.contains a = true ↔ t.localBase.toNat ≤ a.toNat ∧ a.toNat < t.localBase.toNat + 2 ^ t.sizeCode.val := by
  simp only [Terms.contains, Bool.and_eq_true, decide_eq_true_iff]
  rfl

/-! ### Slots and requests -/

theorem Slot.awaits_iff (sl : Slot) (n : RequestNumber) : sl.awaits n = true ↔ sl.state = .pending ∧ sl.number = n := by
  simp [Slot.awaits]

/-- A result that reaches a slot is taken by number (R180). -/
@[simp] theorem State.postResult_port (s : State) (p : PortId) (n : RequestNumber) (r : Result) :
    (s.postResult p n r).port = Units.given s.port p n r := by
  funext q
  unfold State.postResult Units.given Units.put Slot.given
  simp only [Slot.awaits_iff]
  by_cases h : (s.port p).slot.state = .pending ∧ (s.port p).slot.number = n
  · simp only [h, and_self, if_true]
    by_cases hq : q = p <;> simp [hq, h, Slot.complete]
  · simp only [h, if_false]
    by_cases hq : q = p <;> simp [hq]

/-- A port is told that its request was taken (R175, R186). -/
@[simp] theorem State.requestTaken_port (s : State) (p : PortId) :
    (s.requestTaken p).port = Units.told s.port p := by
  funext q
  simp [State.requestTaken, Units.told, Units.put]

@[simp] theorem State.requestTaken_requests (s : State) (p : PortId) :
    (s.requestTaken p).links.requests = s.requestsAfter p := by
  simp [State.requestTaken, State.requestsAfter]

@[simp] theorem Slot.cleared_eq (sl : Slot) : sl.cleared = sl.emptied := rfl

/-- A result changes nothing of a port unit but its slot (R180). -/
@[simp] theorem Units.given_frame (u : Units) (p : PortId) (n : RequestNumber) (r : Result) (q : PortId) :
    (u.given p n r q).state = (u q).state ∧
    (u.given p n r q).role = (u q).role ∧
    (u.given p n r q).epoch = (u q).epoch ∧
    (u.given p n r q).current = (u q).current ∧
    (u.given p n r q).lookaside = (u q).lookaside ∧
    (u.given p n r q).staleWalk = (u q).staleWalk ∧
    (u.given p n r q).staleRequest = (u q).staleRequest ∧
    (u.given p n r q).occupancyCopy = (u q).occupancyCopy ∧
    (u.given p n r q).offlineRequester = (u q).offlineRequester ∧
    (u.given p n r q).fault = (u q).fault ∧
    (u.given p n r q).overflow = (u q).overflow ∧
    (u.given p n r q).faultLine = (u q).faultLine ∧
    (u.given p n r q).resetInput = (u q).resetInput ∧
    (u.given p n r q).answer = (u q).answer := by
  unfold Units.given Units.put
  by_cases h : q = p <;> simp [h]

/-- The evaluation of a pending operation changes nothing of a port unit but its slot (R14, R180). -/
@[simp] theorem Units.evaluated_frame (u : Units) (g : Generation) (b : WindowBody) (q : PortId) :
    (u.evaluated g b q).state = (u q).state ∧
    (u.evaluated g b q).role = (u q).role ∧
    (u.evaluated g b q).epoch = (u q).epoch ∧
    (u.evaluated g b q).current = (u q).current ∧
    (u.evaluated g b q).lookaside = (u q).lookaside ∧
    (u.evaluated g b q).staleWalk = (u q).staleWalk ∧
    (u.evaluated g b q).staleRequest = (u q).staleRequest ∧
    (u.evaluated g b q).occupancyCopy = (u q).occupancyCopy ∧
    (u.evaluated g b q).offlineRequester = (u q).offlineRequester ∧
    (u.evaluated g b q).fault = (u q).fault ∧
    (u.evaluated g b q).overflow = (u q).overflow ∧
    (u.evaluated g b q).faultLine = (u q).faultLine ∧
    (u.evaluated g b q).resetInput = (u q).resetInput ∧
    (u.evaluated g b q).answer = (u q).answer := by
  unfold Units.evaluated
  rcases b.pendingOp with _ | op
  · simp
  · by_cases h : b.conditionMet = true <;> simp [h]

/-! ### Faults -/

/-- A fault offered to a port unit (R150 to R152). -/
@[simp] theorem PortUnit.offerFault_eq (u : PortUnit) (f : FaultInfo) : u.offerFault f = u.offered f := by
  unfold PortUnit.offerFault PortUnit.offered
  rcases h : u.fault with _ | g
  · simp
  · by_cases hd : f.deferred = true ∧ u.state = .active
    · simp [hd, raiseOverflow, Config.overflowMax]
    · have : (f.deferred && u.state == .active) = false := by simpa using hd
      simp [hd, this, raiseOverflow, Config.overflowMax]

/-! ### Lookasides and checks -/

/-- The checks of 2.3, steps 4 to 7: the first that fails. -/
theorem checkFault_eq (t : Terms) (right : Right) (h : AccessHead) : checkFault t right h = firstFailure t right h := by
  unfold checkFault firstFailure accessChecks
  obtain ⟨lb, sc, tb, fetch, level, width, posting, linkable⟩ := t
  obtain ⟨kind, size, addr, cls, lev⟩ := h
  cases fetch <;> cases level <;> cases right <;> cases linkable <;> cases kind <;> cases size <;> cases cls <;>
    cases lev <;> rfl

theorem Lookaside.touch_eq (l : Lookaside) (i : Fin 4) : l.touch i = l.recent i := by
  have : (fun j : Fin 4 => j != i) = fun j => decide (j ≠ i) := by funext j; by_cases h : j = i <;> simp [h]
  simp only [Lookaside.touch, Lookaside.recent, this]

theorem Lookaside.covers_iff (l : Lookaside) (a : LocalAddr) (i : Fin 4) :
    l.covers a i = true ↔ ∃ c, l.entries.get i = some c ∧
      c.terms.localBase.toNat ≤ a.toNat ∧ a.toNat < c.terms.localBase.toNat + 2 ^ c.terms.sizeCode.val := by
  unfold Lookaside.covers
  rcases h : l.entries.get i with _ | c <;> simp [contains_iff]

/-- A hit (R33). -/
theorem Lookaside.hit_of_hits {l : Lookaside} {a : LocalAddr} {i : Fin 4} {c : Copy} (h : l.Hits a i c) :
    l.hit a = some (i, c) := by
  obtain ⟨he, hc, before, after, ho, hb⟩ := h
  have : l.order.find? (l.covers a) = some i := by
    rw [List.find?_eq_some_iff_append]
    refine ⟨(l.covers_iff a i).2 ⟨c, he, hc⟩, before, after, ho, fun j hj => ?_⟩
    by_contra hx
    obtain ⟨d, hd, hr⟩ := (l.covers_iff a j).1 (by simpa using hx)
    exact hb j hj d hd hr
  simp [Lookaside.hit, this, he]

/-- A miss (R33). -/
theorem Lookaside.hit_of_misses {l : Lookaside} {a : LocalAddr} (h : l.Misses a) : l.hit a = none := by
  have : l.order.find? (l.covers a) = none := by
    rw [List.find?_eq_none]
    intro j hj hx
    obtain ⟨d, hd, hr⟩ := (l.covers_iff a j).1 hx
    exact h j hj d hd hr
  simp [Lookaside.hit, this]

/-! ### Admissions, records and parts -/

theorem admission_eq (c : Copy) (a : Access) : c.admission a.toAccessHead = admissionOf c a := by
  simp [Copy.admission, admissionOf, Terms.translate, Bool.decide_and, beq_eq_decide]

theorem laneIn_iff (at0 n i : Nat) : laneIn at0 n i = true ↔ at0 ≤ i ∧ i < at0 + n := by
  simp [laneIn]

theorem writeLanes_eq (at0 : SysAddr) (size : AccessSize) (data : Word) :
    lanesOfWord data (laneOf at0) size.bytes = writeLanes at0 size data := by
  simp only [lanesOfWord, writeLanes, laneIn_iff, laneOf]

theorem storeEntry_eq (p : PortId) (epoch : PortEpoch) (a : Access) (adm : Admission) :
    storeEntryOf p epoch a adm = entryOf p epoch a adm := by
  simp [storeEntryOf, entryOf, writeLanes_eq]

theorem isWrite_iff (k : AccessKind) : k.isWrite = true ↔ k = .write ∨ k = .conditionalWrite := by
  cases k <;> simp [AccessKind.isWrite]

theorem isWrite_eq (k : AccessKind) : k.isWrite = decide (k = .write ∨ k = .conditionalWrite) := by
  cases k <;> simp [AccessKind.isWrite]

theorem partsTotal_eq (size : AccessSize) (width : Width) :
    partsTotal size width = size.bytes / min size.bytes width.bytes := by
  cases size <;> cases width <;> rfl

/-- The record formed from a current access, once its first part has taken the retry limit (R101, R106). -/
theorem accessRecord_eq (p : PortId) (a : Access) (adm : Admission) (limit : Nat) :
    { accessRecord p a adm with retryCount := 0, retryLimit := limit } = recordOfAccess p a adm limit := by
  simp only [accessRecord, recordOfAccess, isWrite_iff, writeLanes_eq, noLanes, partsTotal_eq]

/-- The record formed from a store entry, once its first part has taken the retry limit (R101, R106, R126). -/
theorem entryRecord_eq (e : StoreEntry) (limit : Nat) :
    { entryRecord e with retryCount := 0, retryLimit := limit } = recordOfEntry e limit := by
  simp only [entryRecord, recordOfEntry, noLanes, partsTotal_eq]

/-- The next part of a record (R103, R104). -/
theorem nextPart_eq (r : BusAccess) : r.nextPart = partAt r r.partsDone := by
  have h : ∀ (w : Bool) (f : Fin 4 → Bool) (g : Fin 4 → Option Byte), w = true →
      (Vector.ofFn fun i => if f i = true then g i else none) = (Vector.ofFn fun i => if f i then g i else none) :=
    fun _ _ _ _ => rfl
  simp only [BusAccess.nextPart, partAt, isWrite_eq, restrictLanes, laneIn_iff, laneOf, noLanes]
  by_cases hk : r.kind = .write ∨ r.kind = .conditionalWrite
  · simp only [hk, decide_true, if_true, true_and]
  · simp only [hk, decide_false, false_and, if_false]
    rfl

/-- The assembled data after a read part (R104). -/
theorem advance_eq (r : BusAccess) (lanes : Word) :
    r.advance r.nextPart lanes =
      { r with
        partsDone := r.partsDone + 1
        assembled := assembledWith r.assembled (partAt r r.partsDone) lanes } := by
  rw [nextPart_eq]
  simp only [BusAccess.advance, assembledWith, placeLanes, lanesOfWord, laneIn_iff, laneOf]
  congr 1
  apply vector_ext_get
  intro i
  by_cases hw : (partAt r r.partsDone).isWrite = true
  · simp [hw]
  · by_cases hl : (partAt r r.partsDone).addr.toNat % 4 ≤ i.val ∧
        i.val < (partAt r r.partsDone).addr.toNat % 4 + (partAt r r.partsDone).size.bytes
    · simp [hw, hl]
    · simp [hw, hl]

theorem busFault_eq (k : FaultKind) (r : BusAccess) (a : Access) :
    busFault k r a.toAccessHead = busFaultOf k r a := rfl

theorem deferredFault_eq (k : FaultKind) (r : BusAccess) (e : StoreEntry) :
    deferredFault k r e = deferredFaultOf k e r.partsTotal := rfl

theorem matchFault_eq (a : Access) (k : FaultKind) (w : Option WindowId) :
    matchFault a.toAccessHead k w = matchFaultOf a k w := rfl

/-! ### Reservations -/

theorem granuleOf_toNat (a : SysAddr) : (granuleOf a).toNat = a.toNat / 16 * 16 := by
  have := a.isLt
  simp [granuleOf, Nat.shiftRight_eq_div_pow, Nat.shiftLeft_eq]
  omega

theorem granuleOf_eq (a : SysAddr) : granuleOf a = BitVec.ofNat 36 (a.toNat / 16 * 16) := by
  apply BitVec.eq_of_toNat_eq
  rw [granuleOf_toNat, BitVec.toNat_ofNat]
  have := a.isLt
  omega

theorem granule_iff (g : SysAddr) (a : SysAddr) : g = granuleOf a ↔ g.toNat = a.toNat / 16 * 16 := by
  rw [← granuleOf_toNat]
  exact ⟨fun h => by rw [h], BitVec.eq_of_toNat_eq⟩

/-- A break naming a granule (R141). -/
theorem breakGranule_spec (s : State) (a : SysAddr) :
    s.breakGranule a = { s with monitor := { s.monitor with reservations := s.brokenAt a } } := by
  suffices h : vmap (fun r => Option.filter (fun r => r.granule != granuleOf a) r) s.monitor.reservations = s.brokenAt a by
    rw [← h]; rfl
  unfold State.brokenAt
  apply vector_ext_get
  intro q
  have : s.monitor.reservations.get q = s.reservation q := rfl
  simp only [vmap_get, ofFn_get, this]
  rcases h : s.reservation q with _ | r
  · simp
  · by_cases hg : r.granule.toNat = a.toNat / 16 * 16
    · simp [Option.filter, (granule_iff _ _).2 hg, granuleOf_toNat]
    · simp [Option.filter, hg, mt (granule_iff _ _).1 hg]

/-- A break naming a window (R143). -/
theorem breakWindow_spec (s : State) (w : WindowId) :
    s.breakWindow w = { s with monitor := { s.monitor with reservations := s.brokenFor w } } := by
  suffices h : vmap (fun r => Option.filter (fun r => r.window != w) r) s.monitor.reservations = s.brokenFor w by
    rw [← h]; rfl
  unfold State.brokenFor
  apply vector_ext_get
  intro q
  have : s.monitor.reservations.get q = s.reservation q := rfl
  simp only [vmap_get, ofFn_get, this]
  rcases h : s.reservation q with _ | r
  · simp
  · by_cases hg : r.window = w <;> simp [Option.filter, hg]

theorem reservedOn_iff (s : State) (p : PortId) (a : SysAddr) : s.reservedOn p a = true ↔ s.HoldsGranule p a := by
  unfold State.reservedOn State.HoldsGranule
  rcases h : s.reservation p with _ | r
  · simp
  · simp [granule_iff]

/-! ### The store and the arbiter's choice -/

theorem fits_iff (s : State) (p : PortId) : s.fits p = true ↔ s.HasRoom p := by
  unfold State.fits State.HasRoom State.occupancy
  rw [Bool.and_eq_true, decide_eq_true_iff, decide_eq_true_iff, List.countP_eq_length_filter]
  rfl

/-- Nothing is chosen while the bus is held (R98). -/
theorem State.choose_busy {s : State} (h : s.engine.holder ≠ .free) : s.choose = s := by
  simp [State.choose, h]

/-! ### The ending of a current access -/

/-- The port unit after it answered, with the fault there is offered to it. -/
def PortUnit.answeredWith (u : PortUnit) (a : Answer) (f : Option FaultInfo) : PortUnit :=
  f.elim (u.answered a) fun f => (u.answered a).offered f

theorem PortUnit.offered_occupancyCopy (u : PortUnit) (f : FaultInfo) :
    (u.offered f).occupancyCopy = u.occupancyCopy := by
  unfold PortUnit.offered; split_ifs <;> rfl

theorem PortUnit.offered_current (u : PortUnit) (f : FaultInfo) : (u.offered f).current = u.current := by
  unfold PortUnit.offered; split_ifs <;> rfl

/-- No fault takes a port into or out of QUIESCING. -/
theorem PortUnit.offered_quiescing (u : PortUnit) (f : FaultInfo) :
    (u.offered f).state = .quiescing ↔ u.state = .quiescing := by
  unfold PortUnit.offered; split_ifs <;> simp_all

/-- The ending of a current access: the port answers, and its quiesce condition is evaluated (R26, R112, R170). -/
theorem State.endCurrent_eq (s : State) (p : PortId) (a : Answer) (f : Option FaultInfo) :
    s.endCurrent p a f = (s.modifyPort p fun u => u.answeredWith a f).evaluateQuiesce p := by
  cases f <;> simp [State.endCurrent, State.offerFault, PortUnit.answered, PortUnit.answeredWith]

theorem PortUnit.answeredWith_quiesced (u : PortUnit) (a : Answer) (f : Option FaultInfo) :
    (u.answeredWith a f).quiesced = true ↔ u.state = .quiescing ∧ u.occupancyCopy = 0 := by
  cases f <;> simp [PortUnit.answeredWith, PortUnit.quiesced, PortUnit.offered_quiescing, PortUnit.offered_current,
    PortUnit.offered_occupancyCopy, PortUnit.answered]

/-- The ending of a current access where it completes no quiesce. -/
theorem State.endCurrent_keeps {s : State} {p : PortId} (a : Answer) (f : Option FaultInfo) (h : s.KeepsState p) :
    s.endCurrent p a f = s.modifyPort p fun u => u.answeredWith a f := by
  rw [State.endCurrent_eq]
  have : ((s.port p).answeredWith a f).quiesced = false := by
    rw [← Bool.not_eq_true, PortUnit.answeredWith_quiesced]
    unfold State.KeepsState at h
    tauto
  simp [State.evaluateQuiesce, this]

/-- The ending of a current access where it completes a quiesce (R170). -/
theorem State.endCurrent_offline {s : State} {p : PortId} (a : Answer) (f : Option FaultInfo)
    (h : (s.port p).state = .quiescing) (h0 : (s.port p).occupancyCopy = 0) :
    s.endCurrent p a f = (s.modifyPort p fun u => u.answeredWith a f).enterOffline p := by
  rw [State.endCurrent_eq]
  have : ((s.port p).answeredWith a f).quiesced = true := (PortUnit.answeredWith_quiesced ..).2 ⟨h, h0⟩
  simp [State.evaluateQuiesce, this]

/-- The engine accepts a posted write: its occupancy copy rises first, so no quiesce completes (R121, R127). -/
theorem State.accept_eq (s : State) (p : PortId) (a : Access) (adm : Admission) :
    s.accept p a adm =
      (s.modifyEngine fun g => { g with store := g.store ++ [entryOf p (s.port p).epoch a adm] }).modifyPort p fun u =>
        { u with current := .idle, answer := some (.done none), occupancyCopy := u.occupancyCopy + 1 } := by
  unfold State.accept
  rw [State.endCurrent_keeps _ _ (Or.inr (by simp))]
  simp [PortUnit.answeredWith, PortUnit.answered, storeEntry_eq]

/-! ### Channels -/

/-- What port p has sent, read from its channel and the walk that waits. -/
theorem State.sentBy_congr {s t : State} {p : PortId} (h : t.toTable p = s.toTable p)
    (k : t.waitingWalk p = s.waitingWalk p) : t.sentBy p = s.sentBy p := by
  simp [State.sentBy, h, k]

/-- A walk that reaches the request arbiter still stands before what follows it (R46, R76). -/
theorem State.settleWalk_sentBy (s : State) (p : PortId) : (s.settleWalk p).sentBy p = s.sentBy p := by
  unfold State.settleWalk
  split
  · rename_i h rest ht hw
    simp [State.sentBy, ht, hw]
  · rfl

theorem State.settleWalk_elsewhere (s : State) {p q : PortId} (h : q ≠ p) :
    (s.settleWalk p).toTable q = s.toTable q ∧ (s.settleWalk p).waitingWalk q = s.waitingWalk q := by
  unfold State.settleWalk
  split <;> simp [h]

/-- A message joins what the port has sent (R76). -/
theorem State.sendToTable_sends (s : State) (p : PortId) (m : PortMessage) : s.Sends (s.sendToTable p m) p [m] := by
  refine ⟨?_, fun q hq => ?_⟩
  · rw [State.sendToTable, State.settleWalk_sentBy]
    simp [State.sentBy]
  · have := State.settleWalk_elsewhere (s.setToTable p (s.toTable p ++ [m])) hq
    simpa [State.sendToTable, hq] using this

/-- A message taken from a channel (R76). -/
theorem State.takeFromPort_takes {s : State} {p : PortId} {m : PortMessage} {rest : List PortMessage}
    (h : s.toTable p = m :: rest) : s.Takes (s.takeFromPort p rest) p m rest := by
  refine ⟨h, ?_, fun q hq => ?_⟩
  · rw [State.takeFromPort, State.settleWalk_sentBy]
    rcases hw : s.waitingWalk p with _ | x <;> simp [State.sentBy, hw]
  · have := State.settleWalk_elsewhere (s.setToTable p rest) hq
    simpa [State.takeFromPort, hq] using this

/-- What is sent depends on the channels and the walks alone. -/
theorem State.Sends.congr {s t t' : State} {p : PortId} {ms : List PortMessage} (h : s.Sends t p ms)
    (ht : t'.links.toTable = t.links.toTable) (hw : t'.table.walks = t.table.walks) : s.Sends t' p ms := by
  have e1 : t'.toTable = t.toTable := by funext q; simp [State.toTable, ht]
  have e2 : t'.waitingWalk = t.waitingWalk := by funext q; simp [State.waitingWalk, hw]
  unfold State.Sends State.sentBy at *
  rw [e1, e2]; exact h

theorem State.Sends.congr_left {s s' t : State} {p : PortId} {ms : List PortMessage} (h : s'.Sends t p ms)
    (ht : s'.links.toTable = s.links.toTable) (hw : s'.table.walks = s.table.walks) : s.Sends t p ms := by
  have e1 : s'.toTable = s.toTable := by funext q; simp [State.toTable, ht]
  have e2 : s'.waitingWalk = s.waitingWalk := by funext q; simp [State.waitingWalk, hw]
  unfold State.Sends State.sentBy at *
  rw [e1, e2] at h; exact h

/-- Messages sent one after another. -/
theorem State.Sends.trans {s t u : State} {p : PortId} {ms ns : List PortMessage} (h : s.Sends t p ms)
    (k : t.Sends u p ns) : s.Sends u p (ms ++ ns) := by
  refine ⟨?_, fun q hq => ?_⟩
  · rw [k.1, h.1, List.append_assoc]
  · have a := h.2 q hq
    have b := k.2 q hq
    exact ⟨b.1.trans a.1, b.2.trans a.2⟩

theorem State.Takes.congr {s t t' : State} {p : PortId} {m : PortMessage} {rest : List PortMessage}
    (h : s.Takes t p m rest) (ht : t'.links.toTable = t.links.toTable) (hw : t'.table.walks = t.table.walks) :
    s.Takes t' p m rest := by
  have e1 : t'.toTable = t.toTable := by funext q; simp [State.toTable, ht]
  have e2 : t'.waitingWalk = t.waitingWalk := by funext q; simp [State.waitingWalk, hw]
  unfold State.Takes State.sentBy at *
  rw [e1, e2]; exact h

/-- Entry into OFFLINE (R171): the offline notice is sent, and the units become `wentOffline`. -/
theorem State.enterOffline_spec (s : State) (p : PortId) :
    s.Sends (s.enterOffline p) p [.offlineNotice] ∧
    (s.enterOffline p).port = Units.wentOffline s.port p (s.requestOf p).isSome := by
  constructor
  · let t := s.modifyPort p fun u => { u with state := .offline, lookaside := emptyLookaside }
    refine State.Sends.congr_left (s' := t) (State.Sends.congr (State.sendToTable_sends t p .offlineNotice) ?_ ?_) ?_ ?_
    all_goals simp [State.enterOffline, t]
  · have hr : ∀ (t : State) m, (t.sendToTable p m).requestOf p = t.requestOf p := by intro t m; simp [State.requestOf]
    have hq : ∀ (t : State) m q, (t.sendToTable p m).port q = t.port q := by intro t m q; simp [State.port]
    have he : emptyLookaside = { entries := vfill 4 none, order := [] } := rfl
    unfold State.enterOffline State.postOffline Units.wentOffline State.clearSlot
    simp only [hr]
    rcases ho : (s.port p).offlineRequester with _ | ⟨q, n⟩
    · funext x
      by_cases hx : x = p <;> simp [hx, ho, hq, Units.put, PortUnit.offlined, he]
    · simp only [State.modifyPort_port_at, if_true, hq, ho, State.postResult_port]
      congr 1
      funext x
      by_cases hx : x = p <;> simp [hx, hq, Units.put, PortUnit.offlined, he]

theorem PortUnit.quiesced_iff (u : PortUnit) : u.quiesced = true ↔ u.QuiesceMet := by
  simp [PortUnit.quiesced, PortUnit.QuiesceMet, and_assoc]

/-- A change of a port's unit, with the quiesce condition then evaluated (R170). -/
theorem State.evaluateQuiesce_becomes (s : State) (p : PortId) (f : PortUnit → PortUnit) :
    s.Becomes p (f (s.port p)) ((s.modifyPort p f).evaluateQuiesce p) := by
  have hq : ((s.modifyPort p f).port p).quiesced = true ↔ (f (s.port p)).QuiesceMet := by
    simp [PortUnit.quiesced_iff]
  have hu : (s.modifyPort p f).port = Units.put s.port p (f (s.port p)) := by
    funext q; by_cases h : q = p <;> simp [Units.put, h]
  constructor <;> intro h
  · rw [State.evaluateQuiesce, if_neg (mt hq.1 h)]; rfl
  · obtain ⟨h1, h2⟩ := (s.modifyPort p f).enterOffline_spec p
    rw [State.evaluateQuiesce, if_pos (hq.2 h)]
    refine ⟨h1.congr_left (by simp) (by simp), by rw [h2, hu]; simp [State.requestOf], ?_⟩
    apply State.eq_of_blocks
    · rfl
    · apply Links.eq_of_fields <;> simp
    · apply Table.eq_of_fields <;> simp
    all_goals simp

/-- The ending of a current access (R26, R112, R170). -/
theorem State.endCurrent_becomes (s : State) (p : PortId) (a : Answer) (f : Option FaultInfo) :
    s.Becomes p ((s.port p).answeredWith a f) (s.endCurrent p a f) := by
  rw [State.endCurrent_eq]
  exact s.evaluateQuiesce_becomes p fun u => u.answeredWith a f

/-- The orders of the arbiters after a service (R22, R99). -/
theorem moveToEnd_eq (p : PortId) (order : List PortId) : moveToEnd p order = servedOrder order p := by
  have : (fun q : PortId => q != p) = fun q => decide (q ≠ p) := by funext q; by_cases h : q = p <;> simp [h]
  simp only [moveToEnd, servedOrder, this]

/-! ### The table -/

/-- The evaluation of a pending operation (R14). -/
theorem State.evaluate_spec (s : State) (w : WindowId) (b : WindowBody) (h : (s.record w).body = some b) :
    (s.evaluate w).port = Units.evaluated s.port (s.record w).generation b ∧
    (s.evaluate w).table =
      { s.table with records := vput s.table.records w (evaluatedRecord (s.record w).generation b) } ∧
    (s.evaluate w).links = s.links ∧ (s.evaluate w).engine = s.engine ∧ (s.evaluate w).monitor = s.monitor ∧
    (s.evaluate w).config = s.config ∧ (s.evaluate w).pending = s.pending := by
  have same : vput s.table.records w { generation := (s.record w).generation, body := some b } = s.table.records := by
    rw [← h]; exact vput_self _ _
  have settled_iff : b.settled = true ↔ b.shootSet = [] ∧ b.counts.get 0 = 0 ∧ b.counts.get 1 = 0 := by
    simp [WindowBody.settled, and_assoc]
  have revised_iff : ∀ x : Bool, b.revised x = true ↔
      b.shootSet = [] ∧ (x = true → ∀ e, e ≠ b.epoch → b.counts.get e = 0) := by
    intro x
    have key : ∀ e : Epoch, e ≠ b.epoch ↔ e = otherEpoch b.epoch := by
      intro e; generalize b.epoch = f; revert e f; decide
    cases x <;> simp [WindowBody.revised, key]
  have put : ∀ x : Option WindowBody, (s.setBody w x).table =
      { s.table with records := vput s.table.records w { generation := (s.record w).generation, body := x } } :=
    fun _ => rfl
  unfold State.evaluate
  simp only [h]
  unfold Units.evaluated evaluatedRecord WindowBody.conditionMet WindowBody.finished
  rcases ho : b.pendingOp with _ | ⟨q, n, settled⟩ | ⟨q, n⟩ | ⟨q, n, narrowing⟩
  · simp [same]
  · cases settled
    · by_cases hc : b.shootSet = [] ∧ b.counts.get 0 = 0 ∧ b.counts.get 1 = 0
      · simp [settled_iff.2 hc, hc, PendingOp.requester, PendingOp.number, put]
        rfl
      · simp [Bool.eq_false_iff.2 (mt settled_iff.1 hc), hc, same]
    · simp [same]
  · by_cases hc : b.shootSet = [] ∧ b.counts.get 0 = 0 ∧ b.counts.get 1 = 0
    · simp [settled_iff.2 hc, hc, PendingOp.requester, PendingOp.number, put]
      rfl
    · simp [Bool.eq_false_iff.2 (mt settled_iff.1 hc), hc, same]
  · by_cases hc : b.shootSet = [] ∧ (narrowing = true → ∀ e, e ≠ b.epoch → b.counts.get e = 0)
    · simp only [(revised_iff _).2 hc, decide_eq_true hc, PendingOp.requester, PendingOp.number, if_true]
      simp [put]
      rfl
    · simp only [mt (revised_iff _).1 hc, decide_eq_false hc]
      simp [same]

/-- A record's body replaced and its pending operation then evaluated (R14). -/
theorem State.setBody_evaluate (s : State) (w : WindowId) (b : WindowBody) :
    ((s.setBody w (some b)).evaluate w).port = Units.evaluated s.port (s.record w).generation b ∧
    ((s.setBody w (some b)).evaluate w).table =
      { s.table with records := vput s.table.records w (evaluatedRecord (s.record w).generation b) } ∧
    ((s.setBody w (some b)).evaluate w).links = s.links ∧
    ((s.setBody w (some b)).evaluate w).engine = s.engine ∧
    ((s.setBody w (some b)).evaluate w).monitor = s.monitor ∧
    ((s.setBody w (some b)).evaluate w).config = s.config ∧
    ((s.setBody w (some b)).evaluate w).pending = s.pending := by
  have h1 : ((s.setBody w (some b)).record w).body = some b := by simp [State.setBody, State.setRecord, State.record]
  have h2 : ((s.setBody w (some b)).record w).generation = (s.record w).generation := by
    simp [State.setBody, State.setRecord, State.record]
  obtain ⟨a1, a2, a3, a4, a5, a6, a7⟩ := State.evaluate_spec _ _ _ h1
  rw [h2] at a1 a2
  refine ⟨a1, ?_, a3, a4, a5, a6, a7⟩
  rw [a2]
  simp [State.setBody, State.setRecord]

/-- A count raised or lowered (R10, R11). -/
theorem State.modifyCount_eq {s : State} {w : WindowId} {b : WindowBody} (h : (s.record w).body = some b) (e : Epoch)
    (f : Nat → Nat) : s.modifyCount w e f = s.setBody w (some (b.withCount e (f (b.counts.get e)))) := by
  simp [State.modifyCount, h, WindowBody.modifyCount, WindowBody.withCount]

/-- A FREE record has no pending operation to evaluate. -/
theorem State.evaluate_free (s : State) (w : WindowId) (h : (s.record w).body = none) : s.evaluate w = s := by
  simp [State.evaluate, h]

/-! ### The table's request arbiter -/

theorem State.tableRequestWaits_iff (s : State) (p : PortId) : s.tableRequestWaits p = true ↔ s.WaitsForTable p := by
  have dest : ∀ k : RequestKind, (k.destination == .table) = true ↔
      k ∈ [RequestKind.define, .amend, .enable, .hold, .release, .retire, .setRights, .queryWindow] := by
    intro k; cases k <;> simp [RequestKind.destination]
  unfold State.tableRequestWaits State.WaitsForTable
  rcases s.requestOf p with _ | c
  · simp
  · simp only [Captured.forTable]
    rcases hk : c.kind with _ | k
    · simp [hk]
    · simp only [dest]
      exact ⟨fun h => ⟨c, k, rfl, hk, h⟩, fun ⟨c', k', h1, h2, h3⟩ => by cases h1; rw [hk] at h2; cases h2; exact h3⟩

/-- The walk that the arbiter takes (R21, R22). -/
theorem State.chosenWalk_of {s : State} {p : PortId} {h : AccessHead} (hc : s.ChoosesWalk p h) :
    s.chosenWalk = some (p, h) := by
  obtain ⟨h1, h2, before, after, h3, h4⟩ := hc
  have : s.table.walkOrder.find? (fun p => (s.waitingWalk p).isSome) = some p := by
    rw [List.find?_eq_some_iff_append]
    exact ⟨by simp [h1], before, after, h3, fun q hq => by simpa using h4 q hq⟩
  simp [State.chosenWalk, this, h1]

/-- The request that the arbiter takes (R21, R22). -/
theorem State.chosenRequest_of {s : State} {p : PortId} {c : Captured} {kind : RequestKind}
    (hc : s.ChoosesRequest p c kind) : s.chosenRequest = some (p, c) := by
  obtain ⟨⟨h1, h2⟩, h3, h4, before, after, h5, h6⟩ := hc
  have hw : s.walkWaits = false := by
    rw [← Bool.not_eq_true, State.walkWaits, List.any_eq_true]
    rintro ⟨q, -, hq⟩
    rw [h3 q] at hq
    simp at hq
  have hf : s.table.requestOrder.find? s.tableRequestWaits = some p := by
    rw [List.find?_eq_some_iff_append]
    refine ⟨(s.tableRequestWaits_iff p).2 h4, before, after, h5, fun q hq => ?_⟩
    simpa using mt (s.tableRequestWaits_iff q).1 (h6 q hq)
  simp [State.chosenRequest, hw, hf, h1]

theorem State.onTableRequest_of {s : State} {p : PortId} {c : Captured} {kind : RequestKind}
    (hc : s.ChoosesRequest p c kind) (act : PortId → Captured → State → State) :
    s.onTableRequest kind act = act p c (s.takeTableRequest p) := by
  simp [State.onTableRequest, State.chosenRequest_of hc, hc.1.2]

/-- The state after the table took port p's request and told the port so (R22, R175, R186). -/
@[simp] theorem State.takeTableRequest_frame (s : State) (p : PortId) :
    (s.takeTableRequest p).port = Units.told s.port p ∧
    (s.takeTableRequest p).links = { s.links with requests := s.requestsAfter p } ∧
    (s.takeTableRequest p).table = { s.table with requestOrder := servedOrder s.table.requestOrder p } ∧
    (s.takeTableRequest p).engine = s.engine ∧
    (s.takeTableRequest p).monitor = s.monitor ∧
    (s.takeTableRequest p).config = s.config ∧
    (s.takeTableRequest p).pending = s.pending := by
  refine ⟨?_, ?_, ?_, ?_, ?_, ?_, ?_⟩
  · simp only [State.takeTableRequest, State.requestTaken_port]; rfl
  · apply Links.eq_of_fields <;> simp [State.takeTableRequest, State.requestsAfter]; rfl
  all_goals simp [State.takeTableRequest, moveToEnd_eq]

/-- A port or device request that its destination takes (R175, R186). -/
theorem State.onRequest_of {s : State} {i : PortId} {c : Captured} {kind : RequestKind} (h : s.Asks i c kind)
    (act : Captured → State → State) : s.onRequest kind i act = act c (s.requestTaken i) := by
  simp [State.onRequest, h.1, h.2]

theorem State.onPortRequest_of {s : State} {i q : PortId} {c : Captured} {kind : RequestKind} (h : s.Asks i c kind)
    (ht : c.target = q.val) (act : PortId → Captured → State → State) :
    s.onPortRequest kind i act = act q c (s.requestTaken i) := by
  have hlt : c.target < 6 := by omega
  simp only [State.onPortRequest, State.onRequest_of h, hlt, dite_true]
  congr 1
  exact Fin.ext ht

/-- What a destination's taking of a request leaves, besides the issuer's unit and the requests under way. -/
theorem State.requestTaken_links (s : State) (p : PortId) :
    (s.requestTaken p).links = { s.links with requests := s.requestsAfter p } := by
  apply Links.eq_of_fields <;> simp

/-! ### The examination of a window request (3.1) -/

/-- Step 4 of the examination by the table of R50. -/
theorem WindowRecord.condition_eq (r : WindowRecord) {col : Nat} {kind : RequestKind} {command : Instr}
    (h : windowRequests[col]? = some (kind, command)) :
    (conditionTable r.recordCondition)[col]? = some (r.condition kind) := by
  have settled : ∀ o : Option PendingOp, (∃ q n, o = some (.hold q n true)) ↔
      (match o with | some (.hold _ _ true) => true | _ => false) = true := by
    intro o
    rcases o with _ | ⟨q, n, _ | _⟩ | _ | _ <;> simp
  unfold WindowRecord.recordCondition WindowRecord.condition
  rcases r.body with _ | b
  · (iterate 7 (rcases col with _ | col; · cases h; rfl)); cases h
  · rcases hp : b.phase
    · (iterate 7 (rcases col with _ | col; · cases h; simp [hp, conditionTable])); cases h
    · have hb : b.blocked = true ↔ ¬ (b.pendingOp = none ∧ b.shootSet = []) := by
        simp [WindowBody.blocked, Option.isSome_iff_ne_none]; tauto
      by_cases hx : b.pendingOp = none ∧ b.shootSet = []
      · have : b.blocked = false := by rw [← Bool.not_eq_true, hb]; simpa using hx
        (iterate 7 (rcases col with _ | col; · cases h; simp [hp, hx, this, conditionTable])); cases h
      · have : b.blocked = true := hb.2 hx
        (iterate 7 (rcases col with _ | col; · cases h; simp [hp, hx, this, conditionTable])); cases h
    · by_cases hx : ∃ q n, b.pendingOp = some (.hold q n true)
      · have : b.holdSettled = true := (settled _).1 hx
        (iterate 7 (rcases col with _ | col; · cases h; simp [hp, hx, this, conditionTable])); cases h
      · have : b.holdSettled = false := by rw [← Bool.not_eq_true]; exact mt (settled _).2 hx
        (iterate 7 (rcases col with _ | col; · cases h; simp [hp, hx, this, conditionTable])); cases h
    · (iterate 7 (rcases col with _ | col; · cases h; simp [hp, conditionTable])); cases h

/-- What is shown of a count always fits its field of five bits, and a count that R12 allows is shown as it is. -/
theorem countField_spec (n : Nat) : countField n < 32 ∧ (n ≤ 23 → countField n = n) :=
  ⟨Nat.mod_lt _ (by decide), fun h => Nat.mod_eq_of_lt (by omega)⟩

/-- When an in-flight count leaves no room for another access. -/
theorem State.countFull_eq {s : State} {w : WindowId} {b : WindowBody} (h : (s.record w).body = some b) (e : Epoch) :
    s.countFull w e = decide (23 ≤ b.counts.get e) := by
  simp [State.countFull, WindowRecord.count, h, Config.countLimit]

end Sys2Proof.Machine
end

