-- ==== Sys2Proof/Laws/Arbiter.lean ====
section
/-! SUPPORT. The downstream arbiter in the vocabulary of Safety.lean: which port has a candidate, which port a choice takes,
and what its grant comes to (5.2 to 5.4). -/

namespace Sys2Proof.Machine

theorem mem_allPorts (p : PortId) : p ∈ allPorts := by revert p; decide

/-! ### Candidates -/

theorem State.oldestEntry_of {s : State} {p : PortId} {e : StoreEntry} {before after : List StoreEntry}
    (h : s.OldestEntry p e before after) : s.oldestEntry p = some e := by
  obtain ⟨h1, h2, h3⟩ := h
  unfold State.oldestEntry
  rw [List.find?_eq_some_iff_append]
  exact ⟨by simp [h2], before, after, h1, fun d hd => by simpa using h3 d hd⟩

theorem State.oldestEntry_exists {s : State} {p : PortId} (h : ¬ s.NoEntry p) :
    ∃ e before after, s.OldestEntry p e before after := by
  unfold State.NoEntry at h
  push Not at h
  obtain ⟨e, he, hp⟩ := h
  obtain ⟨x, hx⟩ := Option.isSome_iff_exists.1
    (List.find?_isSome.2 ⟨e, he, decide_eq_true hp⟩ : (s.engine.store.find? fun d => decide (d.port = p)).isSome = true)
  obtain ⟨h1, before, after, h2, h3⟩ := List.find?_eq_some_iff_append.1 hx
  exact ⟨x, before, after, h2, of_decide_eq_true h1, fun d hd => by simpa using h3 d hd⟩

theorem State.oldestEntry_none {s : State} {p : PortId} (h : s.NoEntry p) : s.oldestEntry p = none := by
  unfold State.oldestEntry
  rw [List.find?_eq_none]
  intro e he
  simpa using h e he

/-- A port's candidates: its store entries, its offered access, and its access that waits to be granted again (R95). -/
theorem State.candidate_isSome_iff {s : State} {p : PortId} :
    (s.candidate p).isSome = true ↔ s.HasCandidate p ∨ s.Resumes p := by
  by_cases hn : s.NoEntry p
  · have h0 : ∀ e ∈ s.engine.store, ¬ e.port = p := hn
    unfold State.candidate State.HasCandidate State.OffersAccess State.Resumes
    rw [s.oldestEntry_none hn]
    rcases hc : (s.port p).current with _ | _ | _ | ⟨a, adm, _ | _⟩ | ⟨a, adm⟩
    all_goals rcases ha : s.engine.access with _ | r
    all_goals simp_all [BusAccess.isCurrentOf]
    exact ⟨fun ⟨⟨h1, h2⟩, h3⟩ => .inr ⟨h1, h2, h3⟩,
      fun h => h.elim (fun ⟨e, he, hp⟩ => absurd hp (h0 e he)) fun ⟨h1, h2, h3⟩ => ⟨⟨h1, h2⟩, h3⟩⟩
  · obtain ⟨e, before, after, ho⟩ := State.oldestEntry_exists hn
    simp only [State.candidate, State.oldestEntry_of ho, Option.isSome_some, true_iff]
    exact .inl (.inl ⟨e, by rw [ho.1]; simp, ho.2.1⟩)

theorem State.eligible_iff {s : State} {p : PortId} : s.eligible p = true ↔ s.Competes p := by
  unfold State.eligible State.Competes
  rcases ha : s.engine.access with _ | r <;> simp [State.candidate_isSome_iff, Engine.admitsPort, ha, and_assoc]

/-- With no bus access record present, a port competes with what it has not been granted. -/
theorem State.competes_iff {s : State} {p : PortId} (ha : s.engine.access = none) :
    s.Competes p ↔ s.HasCandidate p ∧ p ∉ s.engine.retryWaiters := by
  simp [State.Competes, State.Resumes, ha]

/-! ### The choice -/

/-- Nothing is chosen where no port has an eligible candidate and the external master does not ask. -/
theorem State.arbitrate_idle {s : State} (h : s.engine.extRequest = false) (hc : s.chosenPort = none) (n : Nat) :
    State.arbitrate n s = s := by
  cases n <;> simp [State.arbitrate, h, hc]

theorem State.highest_iff {s : State} (p : PortId) :
    s.highest p = true ↔ ∀ q, s.Competes q → s.config.ranks.get q ≤ s.config.ranks.get p := by
  simp only [State.highest, List.all_eq_true, Bool.or_eq_true, Bool.not_eq_true', ← Bool.not_eq_true,
    State.eligible_iff, State.rank]
  exact ⟨fun h q hq => decide_eq_true_iff.1 ((h q (mem_allPorts q)).resolve_left (fun hn => hn hq)),
    fun h q _ => Classical.or_iff_not_imp_left.2 fun hn => decide_eq_true_iff.2 (h q (Classical.not_not.1 hn))⟩

/-- The port that a choice grants is the first of the highest rank in the rotation order (R99). -/
theorem State.chosenPort_iff {s : State} {p : PortId} : s.chosenPort = some p ↔ s.GrantsFirst p := by
  unfold State.chosenPort State.GrantsFirst
  rw [List.find?_eq_some_iff_append]
  simp only [Bool.and_eq_true, Bool.not_eq_true', ← Bool.not_eq_true, State.eligible_iff, State.highest_iff]
  constructor
  · rintro ⟨⟨h1, h2⟩, before, after, h3, h4⟩
    refine ⟨h1, h2, before, after, h3, fun q hq hc => ?_⟩
    by_contra hr
    exact h4 q hq ⟨hc, fun x hx => (h2 x hx).trans (not_lt.1 hr)⟩
  · rintro ⟨h1, h2, before, after, h3, h4⟩
    exact ⟨⟨h1, h2⟩, before, after, h3, fun q hq hc => absurd (hc.2 p h1) (not_le.2 (h4 q hq hc.1))⟩

theorem State.chosenPort_none_iff {s : State} : s.chosenPort = none ↔ ∀ p, ¬ s.GrantsFirst p := by
  simp only [← State.chosenPort_iff, Option.eq_none_iff_forall_ne_some]

theorem State.choose_idle {s : State} (ha : s.engine.access = none) (he : s.engine.extRequest = false)
    (h : ∀ q, ¬ s.HasCandidate q) : s.choose = s := by
  unfold State.choose
  split
  · exact State.arbitrate_idle he
      (State.chosenPort_none_iff.2 fun q hq => h q ((State.competes_iff ha).1 hq.1).1) 7
  · rfl

theorem State.choose_external {s : State} (hh : s.engine.holder = .free) (he : s.engine.extRequest = true) :
    s.choose = s.grantExternal := by
  simp [State.choose, hh, State.arbitrate, he]

/-- The choice takes a port: its grant, and more choices where that was a LINK_FAILED. -/
theorem State.choose_port {s : State} {p : PortId} (hh : s.engine.holder = .free) (he : s.engine.extRequest = false)
    (hp : s.chosenPort = some p) :
    s.choose = match s.grant p with | .started t => t | .linkFailed t => State.arbitrate 6 t := by
  have : State.arbitrate 7 s = match s.grant p with | .started t => t | .linkFailed t => State.arbitrate 6 t := by
    rw [State.arbitrate, he, hp]; rfl
  simp [State.choose, hh, this]

/-- A port that alone has an eligible candidate is the one chosen. -/
theorem State.grantsFirst_alone {s : State} {p : PortId} (hc : s.Competes p) (hr : p ∈ s.engine.rotation)
    (alone : ∀ q, s.Competes q → q = p) : s.GrantsFirst p := by
  have hx : s.engine.rotation.find? (fun q => decide (q = p)) = some p := by
    have : (s.engine.rotation.find? fun q => decide (q = p)).isSome = true := by
      rw [List.find?_isSome]; exact ⟨p, hr, by simp⟩
    obtain ⟨x, hx⟩ := Option.isSome_iff_exists.1 this
    have := List.find?_some hx
    simp only [decide_eq_true_eq] at this
    rw [← this] at hx ⊢
    exact hx
  rw [List.find?_eq_some_iff_append] at hx
  obtain ⟨_, before, after, ho, hb⟩ := hx
  refine ⟨hc, fun q hq => by rw [alone q hq], before, after, ho, fun q hq hcq => ?_⟩
  have := hb q hq
  rw [alone q hcq] at this
  simp at this

/-! ### Grants -/

/-- The first part of a store entry starts with its grant (R101, R106, R126). -/
theorem State.seizeBus_startPart_entry (s : State) {p : PortId} {e : StoreEntry} (hp : e.port = p) :
    (s.seizeBus p (entryRecord e)).startPart =
      { s with engine := s.grantedEngine p (recordOfEntry e s.config.retryLimit) } := by
  have h := entryRecord_eq e s.config.retryLimit
  subst hp
  simp only [State.startPart, State.presentPart, State.seizeBus, State.modifyEngine, State.grantedEngine, moveToEnd_eq,
    BusAccess.holder, Option.map, h, nextPart_eq]
  rfl

/-- The first part of a current access starts with its grant (R101, R106). -/
theorem State.seizeBus_startPart_access (s : State) (p : PortId) (a : Access) (adm : Admission) :
    ((s.seizeBus p (accessRecord p a adm)).setCurrent p (.onBus a adm)).startPart =
      { s with
        ports := vput s.ports p { s.port p with current := .onBus a adm }
        engine := s.grantedEngine p (recordOfAccess p a adm s.config.retryLimit) } := by
  have h := accessRecord_eq p a adm s.config.retryLimit
  simp only [State.startPart, State.presentPart, State.seizeBus, State.modifyEngine, State.grantedEngine, moveToEnd_eq,
    BusAccess.holder, Option.map, State.setCurrent, State.modifyPort, State.setPort, h, nextPart_eq]
  rfl

theorem State.grant_entry {s : State} {p : PortId} {e : StoreEntry} {before after : List StoreEntry}
    (ha : s.engine.access = none) (ho : s.OldestEntry p e before after) :
    s.grant p = .started { s with engine := s.grantedEngine p (recordOfEntry e s.config.retryLimit) } := by
  have hc : s.candidate p = some (.entry e) := by simp [State.candidate, State.oldestEntry_of ho]
  simp only [State.grant, ha, hc, State.examine]
  rw [if_neg (by simp [entryRecord]), State.seizeBus_startPart_entry _ ho.2.1]

theorem State.grant_access {s : State} {p : PortId} {a : Access} {adm : Admission} (ha : s.engine.access = none)
    (hn : s.NoEntry p) (ho : s.OffersAccess p a adm) :
    s.grant p = ((s.seizeBus p (accessRecord p a adm)).setCurrent p (.onBus a adm)).examine (accessRecord p a adm)
      State.startPart := by
  have hc : s.candidate p = some (.access a adm) := by simp [State.candidate, State.oldestEntry_none hn, ho.1, ho.2]
  simp only [State.grant, ha, hc]

/-- An access other than a CONDITIONAL_WRITE starts with its grant (R101). -/
theorem State.grant_plain {s : State} {p : PortId} {a : Access} {adm : Admission} (ha : s.engine.access = none)
    (hn : s.NoEntry p) (ho : s.OffersAccess p a adm) (hk : a.kind ≠ .conditionalWrite) :
    s.grant p = .started
      { s with
        ports := vput s.ports p { s.port p with current := .onBus a adm }
        engine := s.grantedEngine p (recordOfAccess p a adm s.config.retryLimit) } := by
  rw [State.grant_access ha hn ho, State.examine, if_neg (by simpa [accessRecord] using hk),
    State.seizeBus_startPart_access]

/-- A record that is kept is granted again, and its part starts with its retry count and limit (R101, R106). -/
theorem State.seizeBus_presentPart (s : State) (r : BusAccess) :
    (s.seizeBus r.origin r).presentPart = s.started r.origin r (s.port r.origin).current := by
  have hs : vput s.ports r.origin { s.port r.origin with current := (s.port r.origin).current } = s.ports := vput_self _ _
  simp only [State.presentPart, State.seizeBus, State.modifyEngine, State.started, State.grantedEngine, moveToEnd_eq,
    BusAccess.holder, Option.map, nextPart_eq, hs]
  rfl

/-! ### The choices of one event -/

/-- The LINK_FAILED of the conditional write r of port p, granted in s, where t is s with the write answered (R112,
R113). -/
def State.linkFailure (s t : State) (p : PortId) (r : BusAccess) : State :=
  { t with
    links := { t.links with engineToTable := t.links.engineToTable ++ [(r.window, r.epoch)] }
    engine := { t.engine with rotation := servedOrder s.engine.rotation p, access := none, holder := .free } }

/-- The ending of port p's access in a state that differs from s in p's stage and in the engine. -/
theorem State.endCurrent_becomes_of {s t : State} {p : PortId} {c : CurrentAccess}
    (h : t = { s with ports := vput s.ports p { s.port p with current := c }, engine := t.engine }) (a : Answer) :
    s.Becomes p ((s.port p).answered a) { t.endCurrent p a none with engine := s.engine } := by
  have hp : t.port p = { s.port p with current := c } := by rw [h]; simp [State.port]
  have hx : (t.port p).answeredWith a none = (s.port p).answered a := by
    rw [hp]; simp [PortUnit.answeredWith, PortUnit.answered]
  have hl : t.links = s.links := by rw [h]
  have ht : t.table = s.table := by rw [h]
  have hu : Units.put t.port p ((s.port p).answered a) = Units.put s.port p ((s.port p).answered a) := by
    funext q
    by_cases hq : q = p <;> simp [Units.put, hq]
    rw [h]; simp [State.port, hq]
  have hv : vput t.ports p ((s.port p).answered a) = vput s.ports p ((s.port p).answered a) := by
    rw [h]; simp
  have hb := t.endCurrent_becomes p a none
  rw [hx] at hb
  constructor
  · intro hn
    rw [hb.1 hn, h]
    simp
  · intro hq
    obtain ⟨h1, h2, h3⟩ := hb.2 hq
    refine ⟨(h1.congr_left (by rw [hl]) (by rw [ht])).congr rfl rfl, ?_, ?_⟩
    · have : (t.endCurrent p a none).port = Units.wentOffline (Units.put s.port p ((s.port p).answered a)) p
          (s.requestOf p).isSome := by rw [h2, hu]; simp [State.requestOf, hl]
      exact this
    · apply State.eq_of_blocks
      · rfl
      · rw [h3]; simp [hl]
      · rw [h3]; simp [ht]
      · rfl
      · rw [h3, h]
      · rw [h3, h]
      · rw [h3, h]

/-- The examination of a granted access, `t` being s with p's stage changed and the bus seized (R101, R113, R139). -/
theorem State.examine_granted {s t : State} {p : PortId} {r0 r : BusAccess} {c : CurrentAccess} {start : State → State}
    (hr : r0.origin = p ∧ r0.kind = r.kind ∧ r0.sysAddr = r.sysAddr ∧ r0.window = r.window ∧ r0.epoch = r.epoch)
    (ht : t = { s with ports := vput s.ports p { s.port p with current := c }, engine := t.engine })
    (he : t.engine.dropAccess =
      { s.engine with rotation := servedOrder s.engine.rotation p, access := none, holder := .free })
    (hs : ∀ m : Monitor, start { t with monitor := m } = { s.started p r c with monitor := m }) :
    (r.kind ≠ .conditionalWrite ∧ t.examine r0 start = .started (s.started p r c)) ∨
    (r.kind = .conditionalWrite ∧ s.HoldsGranule p r.sysAddr ∧ t.examine r0 start = .started { s.started p r c with
        monitor := { s.monitor with reservations := vput s.monitor.reservations p none } }) ∨
    (r.kind = .conditionalWrite ∧ ¬ s.HoldsGranule p r.sysAddr ∧
      ∃ u, s.Becomes p ((s.port p).answered .linkFailed) u ∧ t.examine r0 start = .linkFailed (s.linkFailure u p r)) := by
  obtain ⟨rfl, h2, h3, h4, h5⟩ := hr
  have hm : t.monitor = s.monitor := by rw [ht]
  have hg : t.HoldsGranule r0.origin r.sysAddr ↔ s.HoldsGranule r0.origin r.sysAddr := by
    simp [State.HoldsGranule, State.reservation, hm]
  have h0 := reservedOn_iff t r0.origin r.sysAddr
  rcases t.examine_cases r0 start with ⟨a, b, e⟩ | ⟨a, b, e⟩ | ⟨a, e⟩
  · rw [h3] at b
    refine .inr (.inl ⟨h2 ▸ a, hg.1 (h0.1 b), ?_⟩)
    rw [e, ← hm]
    exact congrArg _ (hs _)
  · rw [h3] at b
    refine .inr (.inr ⟨h2 ▸ a, fun x => (by rw [h0.2 (hg.2 x)] at b; cases b), _,
      State.endCurrent_becomes_of ht .linkFailed, ?_⟩)
    rw [e]
    congr 1
    apply State.eq_of_blocks
    · simp [State.linkFailure, State.finishAccess]
    · apply Links.eq_of_fields <;> simp [State.linkFailure, State.finishAccess, h4, h5]
    all_goals simp [State.linkFailure, State.finishAccess, he]
  · refine .inl ⟨h2 ▸ a, ?_⟩
    rw [e]
    have := hs t.monitor
    rw [hm] at this
    exact congrArg _ ((congrArg start (by rw [← hm])).trans this)

/-- What the grant of a chosen port comes to (R101, R113, R139). -/
theorem State.grant_cases {s : State} {p : PortId} (h : s.GrantsFirst p) : ∃ r c, s.GrantRecord p r c ∧
    ((r.kind ≠ .conditionalWrite ∧ s.grant p = .started (s.started p r c)) ∨
     (r.kind = .conditionalWrite ∧ s.HoldsGranule p r.sysAddr ∧ s.grant p = .started { s.started p r c with
        monitor := { s.monitor with reservations := vput s.monitor.reservations p none } }) ∨
     (r.kind = .conditionalWrite ∧ ¬ s.HoldsGranule p r.sysAddr ∧
        ∃ t, s.Becomes p ((s.port p).answered .linkFailed) t ∧ s.grant p = .linkFailed (s.linkFailure t p r))) := by
  have self : s.ports = vput s.ports p { s.port p with current := (s.port p).current } := (vput_self _ _).symm
  have drop : ∀ (t : State) (r : BusAccess), t.engine = s.engine →
      (t.seizeBus p r).engine.dropAccess =
        { s.engine with rotation := servedOrder s.engine.rotation p, access := none, holder := .free } := by
    intro t r ht; simp [State.seizeBus, Engine.dropAccess, moveToEnd_eq, ht]
  rcases ha : s.engine.access with _ | r
  · by_cases hn : s.NoEntry p
    · obtain ⟨a, adm, ho⟩ : ∃ a adm, s.OffersAccess p a adm :=
        ((State.competes_iff ha).1 h.1).1.elim (fun ⟨e, he, hp⟩ => absurd hp (hn e he)) id
      refine ⟨recordOfAccess p a adm s.config.retryLimit, .onBus a adm, .inr (.inr ⟨ha, hn, a, adm, ho, rfl, rfl⟩), ?_⟩
      rw [State.grant_access ha hn ho]
      refine State.examine_granted ⟨rfl, rfl, rfl, rfl, rfl⟩ ?_ ?_ fun m => ?_
      · rfl
      · simpa using drop s (accessRecord p a adm) rfl
      · exact State.seizeBus_startPart_access { s with monitor := m } p a adm
    · obtain ⟨e, before, after, ho⟩ := State.oldestEntry_exists hn
      refine ⟨recordOfEntry e s.config.retryLimit, (s.port p).current,
        .inr (.inl ⟨ha, e, before, after, ho, rfl, rfl⟩), .inl ⟨?_, ?_⟩⟩
      · simp [recordOfEntry]
      · rw [State.grant_entry ha ho, State.started, ← self]
  · have ho : r.origin = p := h.1.2.2 r ha
    subst ho
    refine ⟨r, (s.port r.origin).current, .inl ⟨ha, rfl⟩, ?_⟩
    have hg : s.grant r.origin = (s.seizeBus r.origin r).examine r State.presentPart := by simp [State.grant, ha]
    rw [hg]
    refine State.examine_granted ⟨rfl, rfl, rfl, rfl, rfl⟩ ?_ (drop s r rfl) fun m => ?_
    · rw [← self]; rfl
    · rw [← State.seizeBus_presentPart s]; rfl

/-- The ports with a current access under way. -/
def State.busyPorts (s : State) : List PortId := allPorts.filter fun p => decide ((s.port p).current ≠ .idle)

theorem Units.wentOffline_current (us : Units) (p q : PortId) (b : Bool) :
    (us.wentOffline p b q).current = (us q).current := by
  unfold Units.wentOffline
  rcases (us p).offlineRequester with _ | ⟨x, n⟩ <;> by_cases hq : q = p <;> simp [Units.put, hq, PortUnit.offlined]

/-- A LINK_FAILED leaves its port IDLE, and the other ports' accesses as they were. -/
theorem State.linkFailure_current {s t : State} {p : PortId} {a : Answer} (r : BusAccess)
    (h : s.Becomes p ((s.port p).answered a) t) (q : PortId) :
    ((s.linkFailure t p r).port q).current = if q = p then .idle else (s.port q).current := by
  have e : (s.linkFailure t p r).port q = t.port q := rfl
  have e2 : (t.port q).current = (Units.put s.port p ((s.port p).answered a) q).current := by
    by_cases hq : ((s.port p).answered a).QuiesceMet
    · rw [(h.2 hq).2.1, Units.wentOffline_current]
    · rw [h.1 hq]
      by_cases hqp : q = p <;> simp [State.port, Units.put, hqp]
  rw [e, e2]
  by_cases hqp : q = p <;> simp [Units.put, hqp, PortUnit.answered]

theorem State.linkFailure_busyPorts {s t : State} {p : PortId} {a : Answer} (r : BusAccess)
    (h : s.Becomes p ((s.port p).answered a) t) :
    (s.linkFailure t p r).busyPorts = s.busyPorts.filter fun q => decide (q ≠ p) := by
  unfold State.busyPorts
  rw [List.filter_filter]
  congr 1
  funext q
  rw [State.linkFailure_current r h]
  by_cases hq : q = p <;> simp [hq]

/-- With no bus access record present, as many choices as there are accesses under way, and one more, are all that an
event makes (R113; notes/assumptions/14.md). -/
theorem State.arbitrate_chooses : ∀ (n : Nat) (s : State), s.engine.access = none → s.busyPorts.length < n →
    s.Chooses (State.arbitrate n s)
  | 0, _, _, h => by omega
  | n + 1, s, ha, hb => by
    unfold State.arbitrate
    by_cases he : s.engine.extRequest = true
    · rw [if_pos he]; exact .external he
    · rw [if_neg he]
      have he : s.engine.extRequest = false := by simpa using he
      rcases hc : s.chosenPort with _ | p
      · exact .nothing he (State.chosenPort_none_iff.1 hc)
      · have hg := State.chosenPort_iff.1 hc
        obtain ⟨r, c, hr, ⟨hk, e⟩ | ⟨hk, hh, e⟩ | ⟨hk, hh, t, ht, e⟩⟩ := State.grant_cases hg <;> simp only [e]
        · exact .starts he hg hr hk
        · exact .consumes he hg hr hk hh
        · refine .linkFailed he hg hr hk hh ht (State.arbitrate_chooses n _ rfl ?_)
          have hp : p ∈ s.busyPorts := by
            rcases hr with ⟨h1, -⟩ | ⟨-, d, _, _, -, rfl, -⟩ | ⟨-, -, a, adm, ho, -⟩
            · rw [ha] at h1; cases h1
            · cases hk
            · simp [State.busyPorts, mem_allPorts, ho.1]
          have hl : (s.busyPorts.filter fun q => decide (q ≠ p)).length < s.busyPorts.length :=
            List.length_filter_lt_length_iff_exists.2 ⟨p, hp, by simp⟩
          rw [← State.linkFailure_busyPorts r ht] at hl
          exact Nat.lt_of_lt_of_le hl (Nat.le_of_lt_succ hb)

theorem State.busyPorts_length (s : State) : s.busyPorts.length ≤ 6 := List.length_filter_le _ allPorts

/-- What the arbiter's choices at a free bus can do, said once (R98, R99, R113): seven always suffice, since the first may
end the access of a record that is kept, and every other LINK_FAILED ends one port's offered access. -/
theorem State.choose_chooses {s : State} (h : s.engine.holder = .free) : s.Chooses s.choose := by
  have hch : s.choose = State.arbitrate 7 s := by simp [State.choose, h]
  rw [hch]
  by_cases ha : s.engine.access = none
  · exact State.arbitrate_chooses 7 s ha (Nat.lt_succ_of_le s.busyPorts_length)
  · by_cases he : s.engine.extRequest = true
    · simp only [State.arbitrate, he, if_true]; exact .external he
    · have he : s.engine.extRequest = false := by simpa using he
      rcases hc : s.chosenPort with _ | p
      · rw [State.arbitrate_idle he hc]; exact .nothing he (State.chosenPort_none_iff.1 hc)
      · have hg := State.chosenPort_iff.1 hc
        rw [← hch, State.choose_port h he hc]
        obtain ⟨r, c, hr, ⟨hk, e⟩ | ⟨hk, hh, e⟩ | ⟨hk, hh, t, ht, e⟩⟩ := State.grant_cases hg <;> simp only [e]
        · exact .starts he hg hr hk
        · exact .consumes he hg hr hk hh
        · refine .linkFailed he hg hr hk hh ht (State.arbitrate_chooses 6 _ rfl ?_)
          have hl : ∀ p : PortId, (allPorts.filter fun q => decide (q ≠ p)).length < 6 := by decide
          change (s.linkFailure t p r).busyPorts.length < 6
          rw [State.linkFailure_busyPorts r ht, State.busyPorts, List.filter_comm]
          exact Nat.lt_of_le_of_lt (List.length_filter_le _ _) (hl p)

end Sys2Proof.Machine
end

