-- ==== Sys2Proof/Laws/Choice.lean ====
section
/-! SUPPORT. What all the choices of one event leave as it was, in the engine, in the reservation monitor, and at a port
that they do not grant (R98, R99, R113). -/

namespace Sys2Proof.Machine

/-- Choices grow the engine's own channel, break reservations, and leave the store and the waiting list. -/
structure State.ChoicesOnly (s t : State) : Prop where
  sent : ∃ more, t.links.engineToTable = s.links.engineToTable ++ more
  broken : ∀ q, s.reservation q = none → t.reservation q = none
  store : t.engine.store = s.engine.store
  waitingList : t.engine.waitingList = s.engine.waitingList

/-- What a choice never grants: port p offers no access, and the bus access record is no conditional write of p. -/
def State.NotChosen (s : State) (p : PortId) : Prop :=
  (∀ a adm, ¬ s.OffersAccess p a adm) ∧
    ∀ r, s.engine.access = some r → r.origin = p → r.kind ≠ .conditionalWrite

/-- Port p keeps its reservation and all of its unit but what its slot may be given (R171, R180). -/
structure State.LeavesPort (p : PortId) (s t : State) : Prop where
  reservation : t.reservation p = s.reservation p
  unit : t.port p = { s.port p with slot := (t.port p).slot }
  notChosen : t.NotChosen p

theorem State.ChoicesOnly.refl (s : State) : s.ChoicesOnly s := ⟨⟨[], by simp⟩, fun _ h => h, rfl, rfl⟩

theorem State.ChoicesOnly.trans {s t u : State} (h : s.ChoicesOnly t) (k : t.ChoicesOnly u) : s.ChoicesOnly u := by
  obtain ⟨m1, e1⟩ := h.sent
  obtain ⟨m2, e2⟩ := k.sent
  exact ⟨⟨m1 ++ m2, by rw [e2, e1, List.append_assoc]⟩, fun q hq => k.broken q (h.broken q hq),
    k.store.trans h.store, k.waitingList.trans h.waitingList⟩

/-- A change of the engine's state that keeps the store and the waiting list. -/
theorem State.ChoicesOnly.of_same {s t : State} (hl : t.links.engineToTable = s.links.engineToTable)
    (hm : t.monitor.reservations = s.monitor.reservations) (he : t.engine.store = s.engine.store)
    (hw : t.engine.waitingList = s.engine.waitingList) : s.ChoicesOnly t :=
  ⟨⟨[], by simp [hl]⟩, fun q hq => by unfold State.reservation at *; rwa [hm], he, hw⟩

/-- The starting of a part changes only the part, its timer, and the retry count and limit of the record. -/
structure StartsPart (start : State → State) : Prop where
  links : ∀ s, (start s).links = s.links
  monitor : ∀ s, (start s).monitor = s.monitor
  ports : ∀ s, (start s).ports = s.ports
  store : ∀ s, (start s).engine.store = s.engine.store
  waitingList : ∀ s, (start s).engine.waitingList = s.engine.waitingList
  access : ∀ s r, (start s).engine.access = some r → ∃ r0, s.engine.access = some r0 ∧ r.origin = r0.origin ∧ r.kind = r0.kind

theorem presentPart_starts : StartsPart State.presentPart where
  links s := by simp
  monitor s := by simp
  ports s := by simp
  store s := by simp [State.presentPart]
  waitingList s := by simp [State.presentPart]
  access s r h := ⟨r, by simpa [State.presentPart] using h, rfl, rfl⟩

theorem startPart_starts : StartsPart State.startPart where
  links s := by simp
  monitor s := by simp
  ports s := by simp
  store s := by simp [State.startPart, State.presentPart]
  waitingList s := by simp [State.startPart, State.presentPart]
  access s r h := by
    simp only [State.startPart, State.presentPart, State.modifyEngine, Option.map_eq_some_iff] at h
    obtain ⟨r0, h0, rfl⟩ := h
    exact ⟨r0, h0, rfl, rfl⟩

theorem State.finishAccess_choicesOnly (s : State) (r : BusAccess) (a : Answer) (f : Option FaultInfo) :
    s.ChoicesOnly (s.finishAccess r a f) :=
  ⟨⟨[(r.window, r.epoch)], by simp [State.finishAccess]⟩, fun q hq => by simpa [State.finishAccess, State.reservation] using hq,
    by simp [State.finishAccess, Engine.dropAccess], by simp [State.finishAccess, Engine.dropAccess]⟩

theorem State.examine_choicesOnly (s : State) (r : BusAccess) {start : State → State} (h : StartsPart start) :
    s.ChoicesOnly (s.examine r start).state := by
  rcases s.examine_cases r start with ⟨-, -, e⟩ | ⟨-, -, e⟩ | ⟨-, e⟩ <;> rw [e] <;> simp only [GrantResult.state]
  · refine ⟨⟨[], by simp [h.links]⟩, fun q hq => ?_, by simp [h.store], by simp [h.waitingList]⟩
    unfold State.reservation at *
    by_cases hqo : q = r.origin <;> simp [h.monitor, State.setReservation, hqo, hq]
  · exact s.finishAccess_choicesOnly r _ _
  · exact .of_same (by rw [h.links]) (by rw [h.monitor]) (h.store s) (h.waitingList s)

theorem State.seizeBus_choicesOnly (s : State) (p : PortId) (r : BusAccess) : s.ChoicesOnly (s.seizeBus p r) :=
  .of_same (by simp) (by simp) (by simp [State.seizeBus]) (by simp [State.seizeBus])

theorem State.grant_choicesOnly (s : State) (p : PortId) : s.ChoicesOnly (s.grant p).state := by
  unfold State.grant
  split
  · exact (s.seizeBus_choicesOnly p _).trans (State.examine_choicesOnly _ _ presentPart_starts)
  · split
    · exact (s.seizeBus_choicesOnly p _).trans (State.examine_choicesOnly _ _ startPart_starts)
    · refine State.ChoicesOnly.trans ?_ (State.examine_choicesOnly _ _ startPart_starts)
      exact .of_same (by simp) (by simp) (by simp [State.seizeBus]) (by simp [State.seizeBus])
    · exact .refl s

theorem State.choose_choicesOnly (s : State) : s.ChoicesOnly s.choose :=
  State.choose_induction (P := fun t => s.ChoicesOnly t)
    (fun _ h => h.trans (.of_same (by simp) (by simp) (by simp [State.grantExternal]) (by simp [State.grantExternal])))
    (fun t q _ h => h.trans (t.grant_choicesOnly q)) s (.refl s)

/-! ### A port that no choice grants -/

theorem State.LeavesPort.trans {p : PortId} {s t u : State} (h : State.LeavesPort p s t) (k : State.LeavesPort p t u) :
    State.LeavesPort p s u :=
  ⟨k.reservation.trans h.reservation, by rw [k.unit, h.unit], k.notChosen⟩

theorem State.NotChosen.of_unit {s t : State} {p : PortId} (h : s.NotChosen p)
    (hu : t.port p = { s.port p with slot := (t.port p).slot })
    (ha : ∀ r, t.engine.access = some r → r.origin = p → r.kind ≠ .conditionalWrite) : t.NotChosen p :=
  ⟨fun a adm ho => h.1 a adm (by unfold State.OffersAccess at *; rw [hu] at ho; exact ho), ha⟩

theorem Units.given_unit (us : Units) (q : PortId) (n : RequestNumber) (r : Result) (p : PortId) :
    us.given q n r p = { us p with slot := (us.given q n r p).slot } := by
  unfold Units.given Units.put
  split
  · rename_i h; subst h; rfl
  · rfl

/-- The ending of another port's access reaches port p at most with a result for its slot (R171). -/
theorem State.endCurrent_elsewhere (s : State) {p q : PortId} (h : q ≠ p) (a : Answer) (f : Option FaultInfo) :
    (s.endCurrent q a f).port p = { s.port p with slot := ((s.endCurrent q a f).port p).slot } := by
  have key : ∀ (us : Units) (b : Bool), us.wentOffline q b p = { us p with slot := (us.wentOffline q b p).slot } := by
    intro us b
    unfold Units.wentOffline
    rcases (us q).offlineRequester with _ | ⟨x, n⟩
    · simp [Units.put, h.symm]
    · simp only
      rw [Units.given_unit]
      simp [Units.put, h.symm]
  rw [State.endCurrent_eq]
  unfold State.evaluateQuiesce
  split
  · have hp : (s.modifyPort q fun u => u.answeredWith a f).port p = s.port p := by simp [h.symm]
    rw [(State.enterOffline_spec _ q).2]
    conv_lhs => rw [key]
    rw [hp]
  · simp [h.symm]

theorem State.examine_leavesPort {s : State} {p : PortId} (r : BusAccess) {start : State → State} (h : StartsPart start)
    (hn : s.NotChosen p) (hr : s.engine.access = some r) : State.LeavesPort p s (s.examine r start).state := by
  have hk := hn.2 r hr
  rcases s.examine_cases r start with ⟨hc, -, e⟩ | ⟨hc, -, e⟩ | ⟨-, e⟩ <;> rw [e] <;> simp only [GrantResult.state]
  · have hne : p ≠ r.origin := fun ho => hk ho.symm hc
    have hu : (start (s.setReservation r.origin none)).port p = s.port p := by simp [State.port, h.ports]
    refine ⟨?_, by rw [hu], hn.of_unit (by rw [hu]) fun r' hr' ho => ?_⟩
    · simp [State.reservation, h.monitor, State.setReservation, hne]
    · obtain ⟨r0, h0, h1, h2⟩ := h.access _ _ hr'
      exact h2 ▸ hn.2 r0 h0 (h1 ▸ ho)
  · have hne : r.origin ≠ p := fun ho => hk ho hc
    have hu : (s.finishAccess r .linkFailed none).port p =
        { s.port p with slot := ((s.finishAccess r .linkFailed none).port p).slot } := by
      simpa [State.finishAccess] using s.endCurrent_elsewhere hne .linkFailed none
    exact ⟨by simp [State.reservation], hu, hn.of_unit hu fun r' hr' => by simp [State.finishAccess, Engine.dropAccess] at hr'⟩
  · have hu : (start s).port p = s.port p := by simp [State.port, h.ports]
    refine ⟨by simp [State.reservation, h.monitor], by rw [hu], hn.of_unit (by rw [hu]) fun r' hr' ho => ?_⟩
    obtain ⟨r0, h0, h1, h2⟩ := h.access _ _ hr'
    exact h2 ▸ hn.2 r0 h0 (h1 ▸ ho)

/-- Port p, which offers nothing, is not the port whose offered access is taken. -/
theorem State.candidate_access {s : State} {p : PortId} {a : Access} {adm : Admission}
    (h : s.candidate p = some (.access a adm)) : s.OffersAccess p a adm := by
  unfold State.candidate at h
  unfold State.OffersAccess
  rcases ho : s.oldestEntry p with _ | e <;> simp only [ho] at h
  · rcases hc : (s.port p).current with _ | _ | _ | ⟨b, adm', _ | _⟩ | _ <;> simp only [hc] at h
    · cases h
    · cases h
    · cases h
    · cases h
    · rcases hp : adm'.posted with _ | _ <;> simp_all
    · split at h
      · split at h <;> cases h
      · cases h
  · cases h

theorem State.grant_leavesPort {s : State} {p : PortId} (q : PortId) (hn : s.NotChosen p) :
    State.LeavesPort p s (s.grant q).state := by
  have seized : ∀ r : BusAccess, (r.origin = p → r.kind ≠ .conditionalWrite) →
      State.LeavesPort p s (s.seizeBus q r) := fun r hr =>
    have hu : (s.seizeBus q r).port p = s.port p := by simp [State.port]
    ⟨by simp [State.reservation], by rw [hu], hn.of_unit (by rw [hu]) fun r' hr' => by
      simp only [State.seizeBus, State.modifyEngine, Option.some.injEq] at hr'; exact hr' ▸ hr⟩
  unfold State.grant
  split
  · rename_i r hr
    have h1 := seized r (hn.2 r hr)
    exact h1.trans (State.examine_leavesPort r presentPart_starts h1.notChosen (by simp [State.seizeBus]))
  · split
    · rename_i e _
      have h1 := seized (entryRecord e) fun _ => by simp [entryRecord]
      exact h1.trans (State.examine_leavesPort _ startPart_starts h1.notChosen (by simp [State.seizeBus]))
    · rename_i a adm hc
      have hqp : p ≠ q := by rintro rfl; exact hn.1 a adm (State.candidate_access hc)
      have hu : ((s.seizeBus q (accessRecord q a adm)).setCurrent q (.onBus a adm)).port p = s.port p := by
        simp [hqp, State.port]
      have h1 : State.LeavesPort p s ((s.seizeBus q (accessRecord q a adm)).setCurrent q (.onBus a adm)) :=
        ⟨by simp [State.reservation], by rw [hu], hn.of_unit (by rw [hu]) fun r' hr' ho => by
          simp [State.seizeBus] at hr'
          subst hr'
          exact absurd ho hqp.symm⟩
      exact h1.trans (State.examine_leavesPort _ startPart_starts h1.notChosen (by simp [State.seizeBus]))
    · exact ⟨rfl, rfl, hn⟩

/-- The choices of one event leave a port that they cannot grant as it was, but for results given to its slot. -/
theorem State.choose_leavesPort {s : State} {p : PortId} (hn : s.NotChosen p) : State.LeavesPort p s s.choose :=
  State.choose_induction (P := fun t => State.LeavesPort p s t)
    (fun t h => h.trans ⟨by simp [State.reservation], by simp [State.port],
      h.notChosen.of_unit (by simp [State.port]) fun r hr => h.notChosen.2 r (by simpa [State.grantExternal] using hr)⟩)
    (fun _ q _ h => h.trans (State.grant_leavesPort q h.notChosen)) s ⟨rfl, rfl, hn⟩

end Sys2Proof.Machine
end

