-- ==== Sys2Proof/WellFormed.lean ====
section
/-! DEFINITION. The one check an operand's type does not already make: a cycle of the external master is naturally
aligned at its own size (R117). Ports, windows, sizes, kinds and slot words are enumerations, so no ill-formed value
of theirs can be written. -/

namespace Sys2Proof

/-- The command is one the outside world can present (R117 for the external master's cycles). -/
def Instr.wellFormed : Instr → Bool
  | .accessArrival _ _ => true
  | .registerWrite _ _ _ => true
  | .acknowledge _ => true
  | .walk => true
  | .admitAnswer _ => true
  | .denyAnswer _ => true
  | .noneAnswer _ => true
  | .parkAnswer _ => true
  | .addition _ => true
  | .subtraction _ => true
  | .acknowledgement _ => true
  | .offlineNotice _ => true
  | .onlineNotice _ => true
  | .shootDown _ => true
  | .releaseNotice _ => true
  | .retireNotice _ => true
  | .parkTimerExpiry _ => true
  | .define => true
  | .amend => true
  | .enable => true
  | .hold => true
  | .release => true
  | .retire => true
  | .setRights => true
  | .queryWindow => true
  | .portOnline _ => true
  | .portOffline _ => true
  | .fence _ => true
  | .unfence _ => true
  | .clearFault _ => true
  | .queryPort _ => true
  | .setParam _ => true
  | .clearDeviceFault _ => true
  | .queryDevice _ => true
  | .resultTaken _ _ _ => true
  | .partAck _ _ => true
  | .partErr _ => true
  | .partRty _ => true
  | .responseTimerExpiry => true
  | .retryWaitExpiry => true
  | .externalRequest => true
  | .externalWithdraw => true
  | .externalWriteAck addr size => addr.toNat % size.bytes == 0
  | .entryFinishedReport _ => true
  | .portReset _ => true
  | .deviceReset _ => true
  | .portResetRelease _ => true

end Sys2Proof
end

