-- ==== Sys2Proof/Tests/Slice0.lean ====
section
/-! SUPPORT. Tests of the model: the check of WellFormed; single steps whose expected results are worked by hand from the
manual's rules and from the worked examples of its Section 11; and, for every statement that has hypotheses, a theorem
that shows a state and operands that meet them (`test_meets_<statement>`, one for each of its clauses or groups of
clauses, at the ends of their ranges). -/

namespace Sys2Proof.Tests

open Sys2Proof Sys2Proof.Machine

/-! ### Small states -/

/-- The state an outcome goes on with; the reset state where it does not go on. -/
def after (o : Host.Outcome State Fault Refusal) : State :=
  match o with
  | .next t => t
  | _ => State.reset

/-- An access of class DATA and level USER with the bytes 11h, 22h, 33h, 44h on its lanes. -/
def acc (kind : AccessKind) (size : AccessSize) (addr : LocalAddr) : Access where
  kind := kind
  size := size
  addr := addr
  cls := .data
  level := .user
  data := 0x44332211

/-- The fields of W1 in the example of 11.1: 1 MiB at 1000_0000h onto 0_1000_0000h, width 32, STRICT, linkable. -/
def terms : Terms where
  localBase := 0x10000000
  sizeCode := 20
  targetBase := 0x010000000
  fetch := .allowed
  level := .any
  width := .w32
  posting := .strict
  linkable := true

def rights : Rights := #v[.readWrite, .readWrite, .noRight, .noRight, .noRight, .noRight]

/-- A body with these fields and nothing in flight. -/
def body (phase : WindowPhase) (op : Option PendingOp) : WindowBody where
  phase := phase
  terms := terms
  rights := rights
  epoch := 0
  counts := vfill 2 0
  pendingOp := op
  shootSet := []
  setGeneration := none

/-- W1 at generation 2 with a body. -/
def withWindow (s : State) (b : WindowBody) : State := s.setRecord 1 { generation := 2, body := some b }

/-- The copy of the LIVE W1 that the table answers to I0. -/
def copy : Copy where
  window := 1
  generation := 2
  terms := terms
  right := .readWrite
  epoch := 0

/-- I0 with a unit changed. -/
def unit0 (f : PortUnit → PortUnit) : State := State.reset.modifyPort 0 f

/-- A captured request: kind code, target, expected generation and P0 to P3. -/
def request (code target : Nat) (expected : Nat) (p0 p1 p2 p3 : Word) : Captured where
  number := 1
  request := BitVec.ofNat 32 (code * 2 ^ 24 + target * 2 ^ 16 + expected)
  params := #v[p0, p1, p2, p3, 0, 0]

/-- Port p has sent a request, its slot PENDING with the request's number. -/
def asking (s : State) (p : PortId) (c : Captured) : State :=
  (s.modifySlot p fun sl => { sl with state := .pending, number := c.number }).setRequest p (some c)

/-! ### The check of WellFormed -/

theorem test_wellFormed_refuses_misaligned : (Instr.externalWriteAck 0x000000002 .four).wellFormed = false := by decide
theorem test_wellFormed_refuses_odd : (Instr.externalWriteAck 0x000000001 .two).wellFormed = false := by decide
theorem test_wellFormed_accepts_aligned : (Instr.externalWriteAck 0xFFFFFFFFC .four).wellFormed = true := by decide

/-! ### Single steps -/

/-- 11.1, first row of requests: DEFINE of W1 from I0, expecting generation 0, leaves it STAGED at generation 1. -/
theorem test_define_stages :
    let s := asking State.reset 0 (request 1 1 0 0x10000000 0x10000000 0x281400 0xA)
    let t := after (exec .define s)
    t.record 1 = { generation := 1, body := some (body .staged none) } ∧
      (t.port 0).slot.result = 0x00010101 ∧ (t.port 0).slot.state = .complete := by decide

/-- 11.1: ENABLE of the STAGED W1 makes it LIVE with link epoch 0. -/
theorem test_enable_makes_live :
    let s := asking (withWindow State.reset (body .staged none)) 0 (request 3 1 2 0 0 0 0)
    let t := after (exec .enable s)
    t.record 1 = { generation := 3, body := some (body .live none) } ∧ t.monitor.linkEpoch.get 1 = some 0 := by decide

/-- 11.1: PORT_ONLINE for I1: ACTIVE, the notice sent, permission YES, DONE without a generation. -/
theorem test_portOnline_brings_up :
    let t := after (exec (.portOnline 0) (asking State.reset 0 (request 9 1 0 0 0 0 0)))
    (t.port 1).state = .active ∧ t.toTable 1 = [.onlineNotice] ∧ t.monitor.permission.get 1 = true ∧
      (t.port 0).slot.result = 1 := by decide

theorem test_onlineNotice_sets_view :
    let t := after (exec (.onlineNotice 1) (State.reset.setToTable 1 [.onlineNotice]))
    t.table.offlineView.get 1 = false ∧ t.toTable 1 = [] := by decide

/-- 11.1: a READ 4 at 1000_0040h that misses walks. -/
theorem test_accessArrival_walks :
    let a := acc .read .four 0x10000040
    let t := after (exec (.accessArrival 0 a) State.reset)
    (t.port 0).current = .walking a true ∧ t.waitingWalk 0 = some a.toAccessHead := by decide

/-- R29: a WRITE 2 at an odd address is a match fault of kind ALIGN. -/
theorem test_accessArrival_misaligned :
    let t := after (exec (.accessArrival 0 (acc .write .two 0x10000041)) State.reset)
    (t.port 0).answer = some .error ∧ ((t.port 0).fault.map FaultInfo.kind) = some .align ∧
      (t.port 0).faultLine = true := by decide

/-- 11.1: the walk of that READ is admitted, the count of epoch 0 becoming 1. -/
theorem test_walk_admits :
    let s := (withWindow State.reset (body .live none)).setWaitingWalk 0 (some (acc .read .four 0x10000040).toAccessHead)
    let t := after (exec .walk s)
    (t.record 1).count 0 = 1 ∧ t.toPort 0 = [.admitted copy] ∧ t.table.walkOrder = [1, 2, 3, 4, 5, 0] := by decide

/-- I0 walks this access, and these messages stand on its channel from the table. -/
def walking (a : Access) (ms : List TableMessage) : State :=
  (unit0 fun u => { u with current := .walking a true }).setToPort 0 ms

/-- 11.1: the ADMIT puts the copy in entry 0; the READ is granted the free bus, as one part of 4 bytes at 0_1000_0040h. -/
theorem test_admitAnswer_grants :
    let t := after (exec (.admitAnswer 0) (walking (acc .read .four 0x10000040) [.admitted copy]))
    (t.port 0).lookaside = { entries := #v[some copy, none, none, none], order := [0] } ∧
      t.engine.holder = .portAccess 0 ∧
      t.engine.part = some { addr := 0x010000040, size := .four, isWrite := false, data := #v[none, none, none, none] } := by
  decide

theorem test_denyAnswer_records :
    let t := after (exec (.denyAnswer 0) (walking (acc .write .four 0x10000040) [.denied { copy with right := .read } .denied]))
    (t.port 0).answer = some .error ∧ (t.port 0).current = .idle ∧
      ((t.port 0).fault.map fun f => (f.kind, f.window)) = some (.denied, some 1) := by decide

theorem test_noneAnswer_records :
    let t := after (exec (.noneAnswer 0) (walking (acc .read .four 0x20000000) [.noWindow]))
    ((t.port 0).fault.map fun f => (f.kind, f.localAddr)) = some (.noWindow, some 0x20000000) ∧
      (t.port 0).lookaside.order = [] := by decide

theorem test_parkAnswer_parks :
    let a := acc .read .four 0x10000040
    let t := after (exec (.parkAnswer 0) (walking a [.park 1]))
    (t.port 0).current = .parked a 1 { limit := 32, ticks := 0 } := by decide

/-- 11.2: a HOLD whose set has emptied settles at the subtraction that brings its count to 0, DONE carrying generation 2. -/
theorem test_subtraction_settles :
    let held : WindowBody := { body .held (some (.hold 0 1 false)) with counts := #v[1, 0] }
    let s := asking (withWindow State.reset held) 0 (request 4 1 1 0 0 0 0)
    let t := after (exec (.subtraction (.port 1)) (s.setToTable 1 [.subtraction 1 0]))
    t.record 1 = { generation := 2, body := some (body .held (some (.hold 0 1 true))) } ∧
      (t.port 0).slot.result = 0x00020101 := by decide

theorem test_addition_raises :
    let s := (withWindow State.reset (body .live none)).setToTable 1 [.addition 1 0]
    ((after (exec (.addition 1) s)).record 1).count 0 = 1 := by decide

/-- R79: an acknowledgement with another set generation leaves the set. -/
theorem test_acknowledgement_checks_generation :
    let b : WindowBody := { body .live none with shootSet := [0, 1], setGeneration := some 2 }
    let s (g : Generation) := (withWindow State.reset b).setToTable 1 [.acknowledgement 1 g]
    ((after (exec (.acknowledgement 1) (s 2))).record 1).outstanding = [0] ∧
      ((after (exec (.acknowledgement 1) (s 1))).record 1).outstanding = [0, 1] := by decide

theorem test_shootDown_invalidates :
    let s := (unit0 fun u => { u with lookaside := u.lookaside.install copy }).setToPort 0 [.shootDown 1 3]
    let t := after (exec (.shootDown 0) s)
    (t.port 0).lookaside = emptyLookaside ∧ t.toTable 0 = [.acknowledgement 1 3] := by decide

/-- I0's access is parked on W1. -/
def parked (a : Access) (ms : List TableMessage) : State :=
  (unit0 fun u => { u with current := .parked a 1 { limit := 32, ticks := 5 } }).setToPort 0 ms

theorem test_releaseNotice_walks_again :
    let a := acc .read .four 0x10000040
    let t := after (exec (.releaseNotice 0) (parked a [.releaseNotice 1]))
    (t.port 0).current = .walking a true ∧ t.waitingWalk 0 = some a.toAccessHead := by decide

theorem test_retireNotice_answers_retry :
    let t := after (exec (.retireNotice 0) (parked (acc .read .four 0x10000040) [.retireNotice 1]))
    (t.port 0).answer = some .retry ∧ (t.port 0).current = .idle := by decide

theorem test_parkTimerExpiry_answers_retry :
    let s (n : Nat) := unit0 fun u =>
      { u with current := .parked (acc .read .four 0x10000040) 1 { limit := 32, ticks := n } }
    let t := after (exec (.parkTimerExpiry 0) (s 33))
    (t.port 0).answer = some .retry ∧ (t.port 0).current = .idle ∧
      (after (exec (.parkTimerExpiry 0) (s 32))).ports = (s 32).ports := by decide

/-- 11.2: HOLD expecting 30 makes W1 HELD at 31 with the set of the ports online; only I0 is, and it gets the shoot-down. -/
theorem test_hold_fills_set :
    let s := asking (State.reset.setRecord 1 { generation := 30, body := some (body .live none) }) 0 (request 4 1 30 0 0 0 0)
    let t := after (exec .hold s)
    let b : WindowBody := { body .held (some (.hold 0 1 false)) with shootSet := [0], setGeneration := some 31 }
    t.record 1 = { generation := 31, body := some b } ∧
      t.toPort 0 = [.shootDown 1 31] ∧ (t.port 0).slot.state = .pending := by decide

/-- 11.2: AMEND of the HELD, settled window moves its target to 0_3001_0000h: DONE with generation 32. -/
theorem test_amend_moves_target :
    let held := { generation := 31, body := some (body .held (some (.hold 0 0 true))) }
    let s := asking (State.reset.setRecord 1 held) 0 (request 2 1 31 0x10000000 0x30100000 0x281400 0xA)
    let t := after (exec .amend s)
    (t.record 1).generation = 32 ∧ ((t.record 1).body.map fun b => (b.phase, b.terms.targetBase)) = some (.held, 0x030100000) ∧
      (t.port 0).slot.result = 0x00200101 := by decide

/-- 11.2: RELEASE at 32 returns it to LIVE at 33 and sends the release notice. -/
theorem test_release_returns_to_live :
    let held := { generation := 32, body := some (body .held (some (.hold 0 0 true))) }
    let s := asking (State.reset.setRecord 1 held) 0 (request 5 1 32 0 0 0 0)
    let t := after (exec .release s)
    t.record 1 = { generation := 33, body := some (body .live none) } ∧ t.toPort 0 = [.releaseNotice 1] := by decide

/-- R63: a RELEASE of an unsettled HOLD posts CANCELLED to its requester. -/
theorem test_release_cancels :
    let s := asking (asking (withWindow State.reset (body .held (some (.hold 1 1 false)))) 1 (request 4 1 1 0 0 0 0)) 0
      (request 5 1 2 0 0 0 0)
    let t := after (exec .release ((s.setRequest 1 none)))
    (t.port 1).slot.result = 0x00030102 ∧ (t.port 0).slot.result = 0x00030101 := by decide

/-- R66: a RETIRE of a STAGED window is over at once; its generation is kept, raised. -/
theorem test_retire_frees_staged :
    let s := asking (withWindow State.reset (body .staged none)) 0 (request 6 1 2 0 0 0 0)
    (after (exec .retire s)).record 1 = { generation := 3, body := none } := by decide

/-- 11.3: lowering a right from READ_WRITE to READ flips the epoch from 1 to 0 and counts go on under 1. -/
theorem test_setRights_flips_epoch :
    let b : WindowBody := { body .live none with epoch := 1, counts := #v[0, 3] }
    let s := asking (State.reset.setRecord 1 { generation := 5, body := some b }) 0 (request 7 1 5 0 0 0 6)
    let t := after (exec .setRights s)
    (t.record 1).generation = 6 ∧ (t.record 1).count 1 = 3 ∧ t.monitor.linkEpoch.get 1 = some 0 ∧
      ((t.record 1).body.map fun b => (b.epoch, b.pendingOp)) = some (0, some (.revise 0 1 true)) := by decide

/-- R187: Q0 of QUERY_WINDOW, selector 1, for a LIVE window with nothing outstanding. -/
theorem test_queryWindow_reports :
    let s := asking (withWindow State.reset (body .live none)) 0 (request 8 1 0 1 0 0 0)
    ((after (exec .queryWindow s)).port 0).slot.resultWords = #v[0x0000000A, 0, 0, 0, 0] := by decide

/-- 11.7: PORT_OFFLINE of a port with a parked access makes it QUIESCING and posts nothing. -/
theorem test_portOffline_quiesces :
    let s := asking (State.reset.modifyPort 1 fun u =>
      { u with state := .active, current := .parked (acc .read .four 0) 1 { limit := 32, ticks := 0 } }) 0
      (request 10 1 0 0 0 0 0)
    let t := after (exec (.portOffline 0) s)
    (t.port 1).state = .quiescing ∧ (t.port 1).offlineRequester = some (0, 1) ∧ (t.port 0).slot.state = .pending := by
  decide

theorem test_fence_fences :
    let s := asking (State.reset.modifyPort 1 fun u => { u with state := .active }) 0 (request 11 1 0 0 0 0 0)
    ((after (exec (.fence 0) s)).port 1).state = .fenced := by decide

/-- 11.5: UNFENCE of a port whose record is empty; the code of STATE where it is occupied. -/
theorem test_unfence_unfences :
    let s := asking (State.reset.modifyPort 1 fun u => { u with state := .fenced }) 0 (request 12 1 0 0 0 0 0)
    ((after (exec (.unfence 0) s)).port 1).state = .active := by decide

/-- A fault of I0's record. -/
def aFault : FaultInfo := matchFault (acc .read .four 0x20000000).toAccessHead .noWindow none

theorem test_clearFault_empties :
    let s := asking (unit0 fun u => { u.offerFault aFault with overflow := 2 }) 0 (request 13 0 0 0 0 0 0)
    let t := after (exec (.clearFault 0) s)
    (t.port 0).fault = none ∧ (t.port 0).overflow = 0 ∧ (t.port 0).faultLine = false := by decide

/-- R189: Q0 and Q1 of a NO_WINDOW fault of a READ 4, class DATA, level USER: kind 1, size 2, local address present. -/
theorem test_queryPort_reports_fault :
    let s := asking (unit0 fun u => u.offerFault aFault) 0 (request 14 0 0 1 0 0 0)
    ((after (exec (.queryPort 0) s)).port 0).slot.resultWords = #v[0x00000903, 0x20000000, 0, 0, 0] := by decide

theorem test_setParam_sets :
    let s := asking State.reset 0 (request 15 1 0 1023 0 0 0)
    (after (exec (.setParam 0) s)).config.responseLimit = 1023 := by decide

theorem test_clearDeviceFault_releases :
    let s := asking (State.reset.offerDeviceFault aFault 4) 0 (request 16 0 0 0 0 0 0)
    let t := after (exec (.clearDeviceFault 0) s)
    t.config.fault = none ∧ t.config.alertLine = false := by decide

/-- R190: the defaults of R191: park limit 32, retry limit 3, response limit 64, every rank 1. -/
theorem test_queryDevice_reports :
    let s := asking State.reset 0 (request 17 0 0 0 0 0 0)
    ((after (exec (.queryDevice 0) s)).port 0).slot.resultWords = #v[0x00400320, 0x00000555, 0, 0, 0] := by decide

theorem test_resultTaken_completes :
    let s := asking State.reset 0 (request 4 1 0 0 0 0 0)
    let t := after (exec (.resultTaken 0 1 (plainResult .done (some 7))) s)
    (t.port 0).slot.result = 0x00070101 ∧ (t.port 0).slot.doneLine = true := by decide

theorem test_acknowledge_returns_to_idle :
    let s := State.reset.modifySlot 0 fun sl => { sl with state := .complete, doneLine := true, result := 5 }
    let t := after (exec (.acknowledge 0) s)
    (t.port 0).slot.state = .idle ∧ (t.port 0).slot.doneLine = false ∧ (t.port 0).slot.result = 5 := by decide

theorem test_registerWrite_stores :
    let t := after (exec (.registerWrite 0 (.param 5) 0xDEADBEEF) State.reset)
    (t.port 0).slot.params = #v[0, 0, 0, 0, 0, 0xDEADBEEF] ∧
      (after (exec (.registerWrite 0 .identity 1) State.reset)).ports =
        (unit0 fun u => { u with answer := some (.done none) }).ports := by decide

/-! ### The bus, after 11.4 to 11.7 -/

/-- I3's WRITE 4 at 5000_0104h through the 8-bit W44, with some parts completed. -/
def splitWrite (done : Nat) : BusAccess where
  origin := 3
  fromStore := false
  kind := .write
  size := .four
  sysAddr := 0x060000104
  data := #v[some 0x11, some 0x22, some 0x33, some 0x44]
  width := .w8
  window := 44
  epoch := 0
  partsTotal := 4
  partsDone := done
  retryCount := 0
  retryLimit := 3
  assembled := #v[none, none, none, none]
  abandoned := false

/-- A store entry of I4 through W50, at port epoch 3. -/
def entryK : StoreEntry where
  port := 4
  portEpoch := 3
  window := 50
  epoch := 0
  sysAddr := 0x070000000
  size := .four
  data := #v[some 0x11, some 0x22, some 0x33, some 0x44]
  width := .w32
  cls := .data
  level := .user
  partsDone := 0

/-- The next part of an access is presented, as the first of all; the store holds these entries. -/
def presenting (s : State) (r : BusAccess) (store : List StoreEntry) : State :=
  let t := if r.fromStore then s else s.modifyPort r.origin fun u =>
    { u with current := .onBus (acc r.kind r.size 0x50000104)
              { window := r.window, epoch := r.epoch, sysAddr := r.sysAddr, width := r.width, linkable := true,
                posted := false } }
  t.modifyEngine fun e =>
    { e with holder := r.holder, access := some r, part := some (partAt r r.partsDone), store := store
             presented := 1, timer := some { limit := 64, ticks := 0 } }

/-- The response timer has run out (R115). -/
def ranOut (s : State) : State := s.modifyEngine fun e => { e with timer := some { limit := 64, ticks := 65 } }

/-- The record of a store entry on the bus. -/
def ofEntry (e : StoreEntry) : BusAccess := recordOfEntry e 3

/-- 11.4: part 0 ends ACK: I5's reservation on granule 0_6000_0100h is broken and part 1 is 22h at 0_6000_0105h. -/
theorem test_partAck_next_part :
    let s := (presenting State.reset (splitWrite 0) []).setReservation 5 (some { granule := 0x060000100, window := 45 })
    let t := after (exec (.partAck 0 1) s)
    t.reservation 5 = none ∧ t.engine.part =
      some { addr := 0x060000105, size := .one, isWrite := true, data := #v[none, some 0x22, none, none] } := by decide

/-- 11.4: part 2 ends ERR: TARGET_ERROR with 2 parts completed of 4, and the subtraction for W44. -/
theorem test_partErr_fails :
    let t := after (exec (.partErr 1) (presenting State.reset (splitWrite 2) []))
    (t.port 3).answer = some .error ∧ t.links.engineToTable = [(44, 0)] ∧
      (t.port 3).fault = some
        { kind := .targetError, deferred := false, localAddr := some 0x50000104, accessKind := .write, size := .four,
          cls := .data, level := .user, window := some 44, sysAddr := some 0x060000104, parts := some (2, 4) } := by
  decide

/-- 11.4: part 2 ends RTY: count 1 within the limit of 3, the bus released, I3 in the retry waiters. -/
theorem test_partRty_releases :
    let t := after (exec (.partRty 1) (presenting State.reset (splitWrite 2) []))
    t.engine.holder = .free ∧ t.engine.retryWaiters = [3] ∧
      (t.engine.access.map fun r => (r.retryCount, r.partsDone)) = some (1, 2) := by decide

/-- R106, R110: an ACK, ERR or RTY of a part that has ended does not end the part presented after it, and an expiry does not
withdraw a part whose timer has been started afresh. -/
theorem test_late_endings_are_not_taken :
    let s := after (exec (.partAck 0 1) (ranOut (presenting State.reset (splitWrite 0) [])))
    s.engine.presented = 2 ∧ ∀ i ∈ [Instr.partAck 0 1, .partErr 1, .partRty 1, .responseTimerExpiry],
      (after (exec i s)).engine = s.engine := by decide

/-- R115: with a limit of 64 the expiry is at the 65th tick, not at the 64th. -/
theorem test_responseTimerExpiry_waits_for_its_tick :
    let s (n : Nat) := (presenting State.reset (splitWrite 2) []).modifyEngine fun e =>
      { e with timer := some { limit := 64, ticks := n } }
    (after (exec .responseTimerExpiry (s 64))).engine = (s 64).engine ∧
      (after (exec .responseTimerExpiry (s 65))).engine.part = none := by decide

/-- 11.4: at the tick I3 is granted again and part 2 is presented again; before it, it waits. -/
theorem test_retryWaitExpiry_presents_again :
    let s := after (exec (.partRty 1) (presenting State.reset (splitWrite 2) []))
    let t := after (exec .retryWaitExpiry (after (step s)))
    (after (exec .retryWaitExpiry s)).engine = s.engine ∧ t.engine.holder = .portAccess 3 ∧ t.engine.part =
      some { addr := 0x060000106, size := .one, isWrite := true, data := #v[none, none, some 0x33, none] } := by decide

/-- 11.5: the second deferred fault of I4 finds its record occupied: overflow 1, FENCED; one entry stays. -/
theorem test_responseTimerExpiry_fences :
    let s := State.reset.modifyPort 4 fun u =>
      { u.offerFault aFault with state := .active, epoch := 3, occupancyCopy := 2 }
    let t := after (exec .responseTimerExpiry (ranOut (presenting s (ofEntry entryK) [entryK, entryK])))
    (t.port 4).state = .fenced ∧ (t.port 4).overflow = 1 ∧ t.engine.store = [entryK] ∧
      t.links.reports.get 4 = 1 := by decide

/-- 11.6: the external master's write in the granule breaks both reservations. -/
theorem test_externalWriteAck_breaks :
    let r : Option Reservation := some { granule := 0x008000020, window := 2 }
    let s := ((State.reset.setReservation 1 r).setReservation 2 r).modifyEngine fun e =>
      { e with holder := .external, extRequest := true, extGrant := true }
    let t := after (exec (.externalWriteAck 0x008000028 .four) s)
    t.reservation 1 = none ∧ t.reservation 2 = none := by decide

/-- 11.6: a CONDITIONAL_WRITE granted without a reservation is LINK_FAILED without a cycle. -/
theorem test_externalWithdraw_link_failed :
    let s := (State.reset.modifyPort 1 fun u =>
      { u with current := .waiting (acc .conditionalWrite .four 0x20000020)
                { window := 2, epoch := 0, sysAddr := 0x008000020, width := .w32, linkable := true, posted := false } true }).modifyEngine
      fun e => { e with holder := .external, extRequest := true, extGrant := true }
    let t := after (exec .externalWithdraw s)
    (t.port 1).answer = some .linkFailed ∧ t.engine.holder = .free ∧ t.links.engineToTable = [(2, 0)] ∧
      t.engine.extGrant = false := by decide

theorem test_externalRequest_granted :
    let t := after (exec .externalRequest State.reset)
    t.engine.holder = .external ∧ t.engine.extGrant = true := by decide

/-- 11.7: the last report of the QUIESCING I5 takes it OFFLINE, with its notice sent and DONE posted to I0. -/
theorem test_entryFinishedReport_offline :
    let s := asking (State.reset.modifyPort 5 fun u =>
      { u with state := .quiescing, occupancyCopy := 1, offlineRequester := some (0, 1) }) 0 (request 10 5 0 0 0 0 0)
    let s := { s with links := { s.links with reports := vput s.links.reports 5 1 } }
    let t := after (exec (.entryFinishedReport 5) s)
    (t.port 5).state = .offline ∧ t.toTable 5 = [.offlineNotice] ∧ (t.port 0).slot.result = 1 := by decide

/-- R81: the offline notice removes I5 from a set, which empties and settles the HOLD. -/
theorem test_offlineNotice_settles :
    let b : WindowBody := { body .held (some (.hold 0 1 false)) with shootSet := [5], setGeneration := some 2 }
    let t := after (exec (.offlineNotice 5) ((withWindow State.reset b).setToTable 5 [.offlineNotice]))
    (t.record 1).body = some (body .held (some (.hold 0 1 true))) ∧ t.table.offlineView.get 5 = true := by decide +kernel

/-- R173: a port reset of a FENCED port: ACTIVE, epoch raised, record and lookaside emptied. -/
theorem test_portReset_clears :
    let s := unit0 fun u => { u.offerFault aFault with state := .fenced, epoch := 0xFFFF }
    let t := after (exec (.portReset 0) s)
    (t.port 0).state = .active ∧ (t.port 0).epoch = 0 ∧ (t.port 0).fault = none ∧ (t.port 0).resetInput = true := by
  decide

theorem test_portResetRelease_releases :
    ((after (exec (.portResetRelease 0) (unit0 fun u => { u with resetInput := true }))).port 0).resetInput = false := by
  decide

/-- R24: BW1 and BW0 low and high make the boot window 16 bits wide; BTOP high puts it at F_FF00_0000h. -/
theorem test_deviceReset_straps :
    let t := after (exec (.deviceReset { lowStraps with bw0 := true, btop := true, onl3 := true }) State.reset)
    ((t.record 0).body.map fun b => (b.terms.width, b.terms.targetBase)) = some (.w16, 0xFFF000000) ∧
      (t.port 3).state = .active ∧ t.table.offlineView.get 3 = false := by decide

/-! ### The statements' hypotheses can be met: arrival and the slot -/

theorem test_meets_StepRunsTheFrontCommand :
    ({ State.reset with pending := [.walk, .partErr] } : State).pending = .walk :: [.partErr] := rfl

theorem idle_not_parked {u : PortUnit} (h : u.current = .idle) (a : Access) (w : WindowId) (x : Timer) :
    u.current ≠ .parked a w x := by simp [h]

/-- Timers at the last tick before they expire, and with none running. -/
theorem test_meets_TickCountsTimers :
    let a := acc .read .four 0x10000040
    let s := (unit0 fun u => { u with current := .parked a 1 { limit := 32, ticks := 31 } }).modifyEngine fun e =>
      { e with timer := some { limit := 64, ticks := 64 } }
    (s.pending = [] ∧ s.engine.timer = some { limit := 64, ticks := 64 } ∧
      (s.port 0).current = .parked a 1 { limit := 32, ticks := 31 }) ∧
    State.reset.pending = [] ∧ State.reset.engine.timer = none ∧
      (∀ a w x, (State.reset.port 0).current ≠ .parked a w x) ∧
    ¬ s.TimerRanOut ∧ s.engine.retryTick = false ∧
      ∀ a w n k, (s.port 0).current = .parked a w { limit := n, ticks := k } → k ≤ n :=
  ⟨by decide, rfl, rfl, idle_not_parked rfl, (fun ⟨_, _, h, hk⟩ => by cases h; exact absurd hk (by decide)), rfl,
    fun _ _ _ _ h => by cases h; decide⟩

theorem test_meets_RefusedAtArrival :
    (((unit0 fun u => { u with resetInput := true }).port 0).current = .idle ∧
      ((unit0 fun u => { u with resetInput := true }).port 0).resetInput = true) ∧
    ((State.reset.port 1).current = .idle ∧ (State.reset.port 1).state = .offline) ∧
    (((unit0 fun u => { u with state := .fenced }).port 0).current = .idle ∧
      ((unit0 fun u => { u with state := .fenced }).port 0).state = .fenced ∧
      ¬ (acc .read .two 0xFFFFF000).IsApertureWord ∧ ¬ (acc .read .four 0xFFFFEFFC).IsApertureWord) ∧
    ((State.reset.modifyPort 1 fun u => { u with state := .quiescing }).port 1).state = .quiescing := by
  unfold Access.IsApertureWord; decide

/-- The copy of W1 in entry 0 of I0. -/
def hit : State := unit0 fun u => { u with lookaside := u.lookaside.install copy }

theorem hit_first : (hit.port 0).lookaside.Hits 0x10000000 0 copy :=
  ⟨rfl, by decide, [], [], rfl, fun j hj => nomatch hj⟩

theorem hit_last : (hit.port 0).lookaside.Hits 0x100FFFFC 0 copy :=
  ⟨rfl, by decide, [], [], rfl, fun j hj => nomatch hj⟩

/-- The same with the right READ. -/
def hitRead : State := unit0 fun u => { u with lookaside := u.lookaside.install { copy with right := .read } }

theorem test_meets_MatchFaultAtArrival :
    (State.reset.Ready 0 ∧ (State.reset.port 0).state = .active) ∧
    ((acc .write .two 0x10000041).Misaligned ∧ (acc .read .two 0xFFFFF000).Misaligned) ∧
    (¬ (acc .linkedRead .four 0xFFFFF000).Misaligned ∧ 0xFFFFF000 ≤ (acc .linkedRead .four 0xFFFFF000).addr.toNat) ∧
    (hitRead.Ready 0 ∧ (hitRead.port 0).state = .active ∧ ¬ (acc .write .one 0x10000000).Misaligned ∧
      (hitRead.port 0).lookaside.Hits 0x10000000 0 { copy with right := .read } ∧
      firstFailure terms .read (acc .write .one 0x10000000).toAccessHead = some .denied) := by
  unfold State.Ready Access.Misaligned
  exact ⟨by decide, by decide, by decide, by decide, by decide, by decide,
    ⟨rfl, by decide, [], [], rfl, fun j hj => nomatch hj⟩, by decide⟩

theorem no_entry_misses {l : Lookaside} (h : l.order = []) (a : LocalAddr) : l.Misses a := by
  simp [Lookaside.Misses, h]

theorem test_meets_HitAdmitsAndMissWalks :
    (hit.Ready 0 ∧ (hit.port 0).state = .active ∧ ¬ (acc .linkedRead .four 0x100FFFFC).Misaligned ∧
      (acc .linkedRead .four 0x100FFFFC).addr.toNat < 0xFFFFF000 ∧
      (hit.port 0).lookaside.Hits (acc .linkedRead .four 0x100FFFFC).addr 0 copy ∧
      firstFailure copy.terms copy.right (acc .linkedRead .four 0x100FFFFC).toAccessHead = none) ∧
    (State.reset.Ready 0 ∧ (State.reset.port 0).state = .active ∧ ¬ (acc .read .four 0xFFFFEFFC).Misaligned ∧
      (acc .read .four 0xFFFFEFFC).addr.toNat < 0xFFFFF000 ∧ (State.reset.port 0).lookaside.Misses 0xFFFFEFFC ∧
      (State.reset.port 0).staleWalk = false) ∧
    (((unit0 fun u => { u with staleWalk := true }).port 0).staleWalk = true ∧
      ((unit0 fun u => { u with staleWalk := true }).port 0).lookaside.Misses 0) := by
  unfold State.Ready Access.Misaligned
  exact ⟨⟨by decide, by decide, by decide, by decide, hit_last, by decide⟩,
    ⟨by decide, by decide, by decide, by decide, no_entry_misses rfl _, by decide⟩, by decide, no_entry_misses rfl _⟩

theorem test_meets_SlotWordsStoreAndReadBack :
    State.reset.SlotOpen 0 ∧ (acc .read .four 0xFFFFF000).size = .four ∧
    (acc .read .four 0xFFFFF03C).addr.toNat = 0xFFFFF000 + (0x02C + 4 * (4 : Fin 5).val) ∧
    (acc .write .four 0xFFFFF044).addr.toNat % 4 = 0 ∧ 0xFFFFF044 ≤ (acc .write .four 0xFFFFFFFC).addr.toNat := by
  unfold State.SlotOpen State.Ready; decide

/-- The slot of I0 with words staged for a request of this kind code and target. -/
def staged (code target : Nat) : State :=
  State.reset.modifySlot 0 fun sl => { sl with request := (request code target 0 0 0 0 0).request }

/-- In each of the slot's cases: overrun; no request of the code 0 or 18; a port target of 6; held back; sent. -/
theorem test_meets_IssueCapturesTheRequest :
    let a := acc .write .four 0xFFFFF020
    let captured (s : State) : Captured :=
      { number := 1, request := (s.port 0).slot.request, params := (s.port 0).slot.params }
    (State.reset.SlotOpen 0 ∧ a.kind = .write ∧ a.size = .four ∧ a.addr.toNat = 0xFFFFF020) ∧
    ((State.reset.modifySlot 0 fun sl => { sl with state := .complete }).port 0).slot.state ≠ .idle ∧
    (((staged 0 0).port 0).slot.state = .idle ∧ (captured (staged 0 0)).kind = none ∧
      (captured (staged 18 0)).kind = none) ∧
    ((captured (staged 14 6)).kind = some .queryPort ∧ 6 ≤ (captured (staged 14 6)).target) ∧
    ((captured (staged 14 5)).kind = some .queryPort ∧ ¬ 6 ≤ (captured (staged 14 5)).target ∧
      ((staged 14 5).port 0).staleRequest = false) ∧
    (((staged 14 5).modifyPort 0 fun u => { u with staleRequest := true }).port 0).staleRequest = true := by
  unfold State.SlotOpen State.Ready; decide

theorem test_meets_ResultsAreTakenAndAcknowledged :
    let s := asking State.reset 0 (request 4 1 0 0 0 0 0)
    ((s.port 0).slot.state = .pending ∧ (s.port 0).slot.number = 1) ∧ (s.port 0).slot.number ≠ 2 ∧
    ((State.reset.modifySlot 0 fun sl => { sl with state := .complete }).SlotOpen 0 ∧
      ((State.reset.modifySlot 0 fun sl => { sl with state := .complete }).port 0).slot.state = .complete) ∧
    (State.reset.SlotOpen 0 ∧ (State.reset.port 0).slot.state ≠ .complete) := by
  unfold State.SlotOpen State.Ready; decide

/-! ### The statements' hypotheses can be met: walks, counts and settlement -/

theorem first_of_order {waits : PortId → Prop} (h : waits 0) : FirstIn [0, 1, 2, 3, 4, 5] waits 0 :=
  ⟨h, [], [1, 2, 3, 4, 5], rfl, fun _ hq => nomatch hq⟩

/-- The walk of I0 at an address of W1 waits. -/
def walkWaiting (s : State) : State := s.setWaitingWalk 0 (some (acc .write .four 0x100FFFFC).toAccessHead)

theorem chooses_walk_of (s : State) (h : AccessHead) (hw : s.waitingWalk 0 = some h)
    (ho : s.table.walkOrder = [0, 1, 2, 3, 4, 5]) : s.ChoosesWalk 0 h :=
  ⟨hw, by rw [ho]; exact first_of_order (by simp [hw])⟩

theorem only_match {s : State} {a : LocalAddr} (h0 : ∀ v, v ≠ 0 → v ≠ 1 → (s.record v).body = none)
    (hb : (s.record 0).body = (State.reset.record 0).body) (ha : 2 ^ 24 ≤ a.toNat) (p : PortId) (v : WindowId)
    (hm : s.Matches p a v) : v = 1 := by
  obtain ⟨b, h1, _, _, _, h5⟩ := hm
  by_contra hne
  by_cases hv : v = 0
  · subst hv; rw [hb] at h1; cases h1; exact absurd h5 (by simpa [bootTerms] using ha)
  · rw [h0 v hv hne] at h1; cases h1

theorem test_meets_WalkIsAnsweredFromTheRecords :
    let h := (acc .write .four 0x100FFFFC).toAccessHead
    let live := walkWaiting (withWindow State.reset (body .live none))
    let held := walkWaiting (withWindow State.reset (body .held (some (.hold 0 1 true))))
    let barred := walkWaiting (withWindow State.reset { body .live none with rights := vfill 6 .read })
    let counted (n : Nat) := walkWaiting (withWindow State.reset { body .live none with counts := #v[n, 0] })
    ((walkWaiting State.reset).ChoosesWalk 0 h ∧ ∀ w, ¬ (walkWaiting State.reset).Matches 0 h.addr w) ∧
    (live.ChoosesWalk 0 h ∧ live.Matches 0 h.addr 1 ∧ (∀ v, live.Matches 0 h.addr v → v = 1) ∧
      firstFailure terms ((body .live none).rights.get 0) h = none) ∧
    (held.ChoosesWalk 0 h ∧ held.Matches 0 h.addr 1 ∧ ∀ v, held.Matches 0 h.addr v → v = 1) ∧
    (barred.ChoosesWalk 0 h ∧ barred.Matches 0 h.addr 1 ∧ (∀ v, barred.Matches 0 h.addr v → v = 1) ∧
      firstFailure terms .read h = some .denied) ∧
    (∀ n, n = 22 ∨ n = 23 → (counted n).ChoosesWalk 0 h ∧ (counted n).Matches 0 h.addr 1 ∧
      (∀ v, (counted n).Matches 0 h.addr v → v = 1) ∧
      ((counted n).record 1).body = some { body .live none with counts := #v[n, 0] } ∧
      (#v[n, 0] : Vector Nat 2).get 0 = n) := by
  intro h live held barred counted
  refine ⟨⟨chooses_walk_of _ _ rfl rfl, fun w hw => ?_⟩,
    ⟨chooses_walk_of _ _ rfl rfl, ⟨_, rfl, .inl rfl, by decide, by decide, by decide⟩,
      only_match (s := live) (a := h.addr) (by decide +kernel) rfl (by decide) 0, by decide⟩,
    ⟨chooses_walk_of _ _ rfl rfl, ⟨_, rfl, .inr rfl, by decide, by decide, by decide⟩,
      only_match (s := held) (a := h.addr) (by decide +kernel) rfl (by decide) 0⟩,
    ⟨chooses_walk_of _ _ rfl rfl, ⟨_, rfl, .inl rfl, by decide, by decide, by decide⟩,
      only_match (s := barred) (a := h.addr) (by decide +kernel) rfl (by decide) 0, by decide⟩,
    fun n hn => by
      rcases hn with rfl | rfl <;>
        exact ⟨chooses_walk_of _ _ rfl rfl, ⟨_, rfl, .inl rfl, by decide, by decide, by decide⟩,
          only_match (s := counted _) (a := h.addr) (by decide +kernel) rfl (by decide) 0, rfl, rfl⟩⟩
  have h1 := only_match (s := walkWaiting State.reset) (by decide +kernel) rfl (by decide) 0 w hw
  obtain ⟨b, hb, _⟩ := hw
  rw [h1] at hb; cases hb

/-- A store with n entries of I0. -/
def storing (s : State) (n : Nat) : State :=
  s.modifyEngine fun e => { e with store := List.replicate n { entryK with port := 0 }, holder := .external }

/-- A store of I0 with no room for it, at a free bus. -/
def freeBus (s : State) : State := (storing s 8).modifyEngine fun e => { e with holder := .free }

theorem test_meets_AdmitAnswerOffersTheAccess :
    let a := acc .write .four 0x10000000
    let posted : Copy := { copy with terms := { terms with posting := .posted } }
    let s (n : Nat) := storing (walking a [.admitted posted]) n
    (storing (walking a [.admitted copy]) 0).toPort 0 = .admitted copy :: [] ∧ (admissionOf copy a).posted = false ∧
    (s 7).toPort 0 = .admitted posted :: [] ∧ ((s 7).port 0).current = .walking a true ∧
    ((s 7).port 0).staleWalk = false ∧ (s 7).engine.holder ≠ .free ∧ (admissionOf posted a).posted = true ∧
    (s 7).HasRoom 0 ∧ ¬ (s 8).HasRoom 0 ∧
    (let t := freeBus (walking a [.admitted posted])
     t.engine.holder = .free ∧ ¬ t.HasRoom 0 ∧ t.toPort 0 = .admitted posted :: [] ∧
       (t.port 0).current = .walking a true ∧ (t.port 0).staleWalk = false) := by
  unfold State.HasRoom; decide

/-- A lookaside whose four entries are valid, entry 3 the least recently used. -/
def full : Lookaside where
  entries := Vector.ofFn fun i => some { copy with window := Fin.ofNat 64 (10 + i.val) }
  order := [0, 2, 1, 3]

theorem full_kept : full.WellKept := by
  refine ⟨by decide, by decide, fun i j c d hi hj hw => ?_⟩
  simp only [full, Vector.get_ofFn, Option.some.injEq] at hi hj
  subst hi; subst hj
  revert i j; decide

theorem empty_kept : emptyLookaside.WellKept :=
  ⟨by decide, by decide, fun i j c d hi => by simp [emptyLookaside] at hi⟩

theorem test_meets_CopyIsPlacedByTheReplacementRule :
    (unit0 fun u => { u with lookaside := full }).port 0 = { State.reset.port 0 with lookaside := full } ∧
    full.WellKept ∧ (∃ d, full.entries.get 2 = some d ∧ d.window = 12) ∧
    (∀ i d, full.entries.get i = some d → d.window ≠ copy.window) ∧ (∀ i, full.entries.get i ≠ none) ∧
    full.order = [0, 2, 1] ++ [3] ∧
    emptyLookaside.WellKept ∧ emptyLookaside.entries.get 0 = none := by
  refine ⟨rfl, full_kept, ⟨_, rfl, rfl⟩, fun i d hi => ?_, by decide, rfl, empty_kept, rfl⟩
  simp only [full, Vector.get_ofFn, Option.some.injEq] at hi
  subst hi; revert i; decide

theorem active_keeps {s : State} {p : PortId} (h : (s.port p).state = .active) : s.KeepsState p :=
  .inl (by simp [h])

theorem test_meets_RefusingAndParkingAnswers :
    let a := acc .read .four 0x10000000
    (∀ ms, ((walking a ms).port 0).current = .walking a true ∧ ((walking a ms).port 0).staleWalk = false ∧
      (walking a ms).KeepsState 0) ∧
    (walking a [.denied copy .link]).toPort 0 = .denied copy .link :: [] ∧
    (walking a [.noWindow]).toPort 0 = .noWindow :: [] ∧ (walking a [.park 63]).toPort 0 = .park 63 :: [] :=
  ⟨fun _ => ⟨rfl, rfl, active_keeps rfl⟩, rfl, rfl, rfl⟩

/-- I0 with its stale-walk flag set, a current access, and a message from the table. -/
def stale (c : CurrentAccess) (m : TableMessage) : State :=
  (unit0 fun u => { u with current := c, staleWalk := true }).setToPort 0 [m]

theorem test_meets_StaleAnswerIsDiscarded :
    let c : CurrentAccess := .walking (acc .read .four 0x10000000) false
    ∀ m ∈ [.admitted copy, .denied copy .denied, .noWindow, .park 1],
      (stale c m).toPort 0 = m :: [] ∧ ((stale c m).port 0).staleWalk = true ∧ ((stale c m).port 0).current = c ∧
        (stale .idle m).toPort 0 = m :: [] ∧ ((stale .idle m).port 0).staleWalk = true :=
  fun _ _ => ⟨rfl, rfl, rfl, rfl, rfl⟩

theorem test_meets_ParkEndsByNoticeOrTimer :
    let a := acc .read .four 0x10000000
    (∀ m, ((parked a [m]).toPort 0 = m :: [] ∧
      ((parked a [m]).port 0).current = .parked a 1 { limit := 32, ticks := 5 } ∧
      ((parked a [m]).port 0).staleWalk = false ∧ (parked a [m]).KeepsState 0)) ∧
    ((unit0 fun u => { u with current := .parked a 1 { limit := 32, ticks := 33 } }).port 0).current =
      .parked a 1 { limit := 32, ticks := 33 } ∧
    ((State.reset.setToPort 0 [.releaseNotice 1]).toPort 0 = .releaseNotice 1 :: [] ∧
      (State.reset.setToPort 0 [.retireNotice 1]).toPort 0 = .retireNotice 1 :: [] ∧
      ∀ a x, (State.reset.port 0).current ≠ .parked a 1 x) :=
  ⟨fun _ => ⟨rfl, rfl, rfl, active_keeps rfl⟩, rfl, rfl, rfl, fun a x => idle_not_parked rfl a 1 x⟩

/-- I1's access waits to be offered, its addition on the channel; the store is as `storing` leaves it. -/
def adding (posted : Bool) (s : State) : State :=
  ((withWindow s (body .live none)).modifyPort 0 fun u =>
    { u with current := .waiting (acc .write .four 0x10000000)
              { window := 1, epoch := 0, sysAddr := 0x010000000, width := .w32, linkable := true, posted := posted } false }).setToTable 0
    [.addition 1 0]

theorem test_meets_AdditionCountsAndOffers :
    let s := (withWindow State.reset (body .live none)).setToTable 0 [.addition 1 0]
    (∀ n, ∃ b, (((withWindow State.reset { body .live none with counts := #v[n, 0] }).setToTable 0
        [.addition 1 0]).record 1).body = some b ∧ b.counts.get 0 = n) ∧
    (s.toTable 0 = .addition 1 0 :: [] ∧ (s.record 1).body = some (body .live none) ∧
      ∀ a adm, (s.port 0).current ≠ .waiting a adm false) ∧
    (∀ b s, (adding b s).toTable 0 = .addition 1 0 :: [] ∧ ((adding b s).record 1).body = some (body .live none) ∧
      ∃ a adm, ((adding b s).port 0).current = .waiting a adm false ∧ adm.posted = b) ∧
    (∀ b, ∀ n ∈ [7, 8], (adding b (storing State.reset n)).engine.holder ≠ .free) ∧
    (adding true (storing State.reset 7)).HasRoom 0 ∧ ¬ (adding true (storing State.reset 8)).HasRoom 0 ∧
    (adding true (freeBus State.reset)).engine.holder = .free ∧ ¬ (adding true (freeBus State.reset)).HasRoom 0 := by
  refine ⟨fun n => ⟨_, rfl, rfl⟩, ⟨rfl, rfl, fun a adm h => ?_⟩, fun b s => by simp [adding, withWindow], by decide, ?_⟩
  · exact CurrentAccess.noConfusion (show CurrentAccess.idle = .waiting a adm false from h)
  · unfold State.HasRoom; decide

theorem test_meets_SubtractionLowersTheCount :
    let s := withWindow State.reset { body .draining (some (.retire 0 1)) with counts := #v[1, 0] }
    (s.record 1).body = some { body .draining (some (.retire 0 1)) with counts := #v[1, 0] } ∧
    (s.setToTable 1 [.subtraction 1 0]).toTable 1 = .subtraction 1 0 :: [] ∧
    (s.engineSubtract 1 0).links.engineToTable = (1, 0) :: [] :=
  ⟨rfl, rfl, rfl⟩

theorem test_meets_AcknowledgementLeavesTheSet :
    let b : WindowBody := { body .live (some (.revise 0 1 false)) with shootSet := [1], setGeneration := some 2 }
    let s := (withWindow State.reset b).setToTable 1 [.acknowledgement 1 2]
    (s.toTable 1 = .acknowledgement 1 2 :: [] ∧ (s.record 1).body = some b ∧ 1 ∈ b.shootSet ∧
      b.setGeneration = some 2) ∧ 0 ∉ b.shootSet ∧ b.setGeneration ≠ some 1 :=
  ⟨⟨rfl, rfl, by decide, rfl⟩, by decide, by decide⟩

theorem test_meets_NoticesSetTheView :
    (State.reset.setToTable 5 [.offlineNotice]).toTable 5 = .offlineNotice :: [] ∧
    (State.reset.setToTable 5 [.onlineNotice]).toTable 5 = .onlineNotice :: [] := ⟨rfl, rfl⟩

theorem test_meets_ShootDownIsAcknowledged :
    (hit.setToPort 0 [.shootDown 1 3]).toPort 0 = .shootDown 1 3 :: [] ∧
    (hit.port 0).lookaside.entries.get 0 = some copy ∧ (hit.port 0).lookaside.entries.get 3 = none :=
  ⟨rfl, rfl, rfl⟩

/-! ### The statements' hypotheses can be met: window requests -/

/-- The table takes this request of I0 on W0, whose record is r; every other window is FREE. -/
def taking (r : WindowRecord) (c : Captured) : State := asking (State.reset.setRecord 0 r) 0 c

/-- W0 at generation 2 with this body. -/
def asW0 (b : WindowBody) : WindowRecord where
  generation := 2
  body := some b

theorem chooses_request_of (s : State) (c : Captured) (k : RequestKind) (hr : s.requestOf 0 = some c)
    (hk : c.kind = some k)
    (hm : k ∈ [.define, .amend, .enable, .hold, .release, .retire, .setRights, .queryWindow])
    (hw : ∀ q, s.waitingWalk q = none) (ho : s.table.requestOrder = [0, 1, 2, 3, 4, 5]) : s.ChoosesRequest 0 c k :=
  ⟨⟨hr, hk⟩, hw, by rw [ho]; exact first_of_order ⟨c, k, hr, hk, hm⟩⟩

theorem no_overlap_of {s : State} {w : WindowId} (h : ∀ v, v ≠ w → (s.record v).body = none) (t : Terms) (r : Rights) :
    ¬ s.Overlaps w t r := by
  rintro ⟨v, b, hv, hb, _⟩
  rw [h v hv] at hb; cases hb

theorem held_settled (w : WindowId) (s : State) (b : WindowBody) (q : PortId) (n : RequestNumber)
    (h : (s.record w).body = some b) (hp : b.phase = .held) (ho : b.pendingOp = some (.hold q n true)) :
    (s.record w).recordCondition = .heldSettled := by
  simp [WindowRecord.recordCondition, h, hp, ho]

/-- The table takes a request of I0 on W1, W0 being the LIVE boot window. -/
def takingW1 (b : WindowBody) (c : Captured) : State := asking (withWindow State.reset b) 0 c

theorem test_meets_WindowRequestsAreExaminedInOrder :
    windowRequests[3]? = some (.hold, .hold) ∧
    (let c := request 4 64 2 0 0 0 0
     (takingW1 (body .live none) c).ChoosesRequest 0 c .hold ∧ 64 ≤ c.target) ∧
    (let c := request 4 1 2 0 0 0 0
     let s := (takingW1 (body .live none) c).modifyPort 0 fun u => { u with role := .ordinary }
     s.ChoosesRequest 0 c .hold ∧ c.target = (1 : WindowId).val ∧ (s.port 0).role ≠ .supervisor) ∧
    (let c := request 4 1 3 0 0 0 0
     let s := takingW1 (body .live none) c
     s.ChoosesRequest 0 c .hold ∧ c.target = (1 : WindowId).val ∧ (s.port 0).role = .supervisor ∧ c.any = false ∧
       c.expected ≠ (s.record 1).generation) ∧
    (let c := request 4 63 0 0 0 0 0
     let s := takingW1 (body .live none) c
     s.ChoosesRequest 0 c .hold ∧ s.MayChange 0 c 63 ∧
       (conditionTable (s.record 63).recordCondition)[3]? = some (some .state)) := by
  refine ⟨rfl, ⟨chooses_request_of _ _ _ rfl rfl (by decide) (by decide) rfl, by decide⟩,
    ⟨chooses_request_of _ _ _ rfl rfl (by decide) (by decide) rfl, by decide, by decide⟩,
    ⟨chooses_request_of _ _ _ rfl rfl (by decide) (by decide) rfl, by decide, by decide, by decide, by decide⟩,
    chooses_request_of _ _ _ rfl rfl (by decide) (by decide) rfl, ⟨by decide, by decide, .inr (by decide)⟩, rfl⟩

/-- A request on W1 that may change it, in the LIVE-boot-window state. -/
theorem may_change_of (s : State) (c : Captured) (w : WindowId) (h1 : c.target = w.val)
    (h2 : (s.port 0).role = .supervisor) (h3 : c.expected = (s.record w).generation) : s.MayChange 0 c w :=
  ⟨h1, h2, .inr h3⟩

/-- The body of the boot window (R24). -/
def bootBody : WindowBody where
  phase := .live
  terms := bootTerms lowStraps
  rights := bootRights
  epoch := 0
  counts := vfill 2 0
  pendingOp := none
  shootSet := []
  setGeneration := none

theorem boot_overlaps (s : State) (h : s.record 0 = State.reset.record 0) :
    s.Overlaps 1 { terms with localBase := 0x00F00000 } rights :=
  ⟨0, bootBody, by decide, by rw [h]; rfl, .inl rfl, ⟨0x00FFFFFF, by decide, by decide⟩, 0, by decide, by decide⟩

theorem test_meets_FieldAndOverlapRefusals :
    let low : Terms := { terms with localBase := 0x00F00000 }
    let lowBody (phase : WindowPhase) (op : Option PendingOp) : WindowBody := { body phase op with terms := low }
    let settled := some (PendingOp.hold 0 0 true)
    (let c := request 1 63 0 0x10000000 0x10000000 0x280B00 0xA   -- a size code of 11
     let s := takingW1 (body .live none) c
     s.MayChange 0 c 63 ∧ s.ChoosesRequest 0 c .define ∧ (s.record 63).recordCondition = .free ∧ c.fieldSet = none) ∧
    (let c := request 2 1 2 0x10000000 0x10000000 0x281400 3      -- a right of 3
     let s := takingW1 (body .staged none) c
     s.MayChange 0 c 1 ∧ s.ChoosesRequest 0 c .amend ∧ (s.record 1).recordCondition = .staged ∧ c.fieldSet = none) ∧
    (let c := request 2 1 2 0x00F00000 0x10000000 0x281400 0xA
     let s := takingW1 (body .held settled) c
     s.MayChange 0 c 1 ∧ s.ChoosesRequest 0 c .amend ∧ (s.record 1).recordCondition = .heldSettled ∧
       c.fieldSet = some (low, rights) ∧ s.Overlaps 1 low rights) ∧
    (let c := request 7 1 2 0 0 0 0xC00
     let s := takingW1 (body .live none) c
     s.MayChange 0 c 1 ∧ s.ChoosesRequest 0 c .setRights ∧ (s.record 1).recordCondition = .liveOpen ∧
       decodeRights (c.params.get 3) = none) ∧
    (let c := request 3 1 2 0 0 0 0
     let s := takingW1 (lowBody .staged none) c
     s.MayChange 0 c 1 ∧ s.ChoosesRequest 0 c .enable ∧ (s.record 1).body = some (lowBody .staged none) ∧
       (s.record 1).recordCondition = .staged ∧ s.Overlaps 1 low rights) ∧
    (let c := request 5 1 2 0 0 0 0
     let s := takingW1 (lowBody .held settled) c
     s.MayChange 0 c 1 ∧ s.ChoosesRequest 0 c .release ∧ (s.record 1).body = some (lowBody .held settled) ∧
       (s.record 1).recordCondition = .heldSettled ∧ s.Overlaps 1 low rights) ∧
    (let c := request 7 1 2 0 0 0 0xA
     let none1 : Rights := #v[.noRight, .readWrite, .noRight, .noRight, .noRight, .noRight]
     let s := takingW1 { lowBody .live none with rights := none1 } c
     s.MayChange 0 c 1 ∧ s.ChoosesRequest 0 c .setRights ∧ (s.record 1).recordCondition = .liveOpen ∧
       decodeRights (c.params.get 3) = some rights ∧ Gains none1 rights ∧ s.Overlaps 1 low rights) := by
  refine ⟨⟨may_change_of _ _ _ (by decide) rfl (by decide), chooses_request_of _ _ _ rfl rfl (by decide) (by decide) rfl,
      rfl, by decide⟩,
    ⟨may_change_of _ _ _ (by decide) rfl (by decide), chooses_request_of _ _ _ rfl rfl (by decide) (by decide) rfl,
      rfl, by decide⟩,
    ⟨may_change_of _ _ _ (by decide) rfl (by decide), chooses_request_of _ _ _ rfl rfl (by decide) (by decide) rfl,
      held_settled _ _ _ 0 0 rfl rfl rfl, by decide, boot_overlaps _ rfl⟩,
    ⟨may_change_of _ _ _ (by decide) rfl (by decide), chooses_request_of _ _ _ rfl rfl (by decide) (by decide) rfl,
      rfl, by decide⟩,
    ⟨may_change_of _ _ _ (by decide) rfl (by decide), chooses_request_of _ _ _ rfl rfl (by decide) (by decide) rfl,
      rfl, rfl, boot_overlaps _ rfl⟩,
    ⟨may_change_of _ _ _ (by decide) rfl (by decide), chooses_request_of _ _ _ rfl rfl (by decide) (by decide) rfl,
      rfl, held_settled _ _ _ 0 0 rfl rfl rfl, boot_overlaps _ rfl⟩,
    may_change_of _ _ _ (by decide) rfl (by decide), chooses_request_of _ _ _ rfl rfl (by decide) (by decide) rfl,
      rfl, by decide, ⟨0, by decide, by decide⟩, boot_overlaps _ rfl⟩

/-- DEFINE on a FREE window; AMEND on a STAGED and on a HELD, settled one; ENABLE on a STAGED one. -/
theorem test_meets_StagedWindowsAreMadeAndEnabled :
    (let c := request 1 0 2 0x10000000 0x10000000 0x281400 0xA
     let s := taking { generation := 2, body := none } c
     s.ChoosesRequest 0 c .define ∧ s.MayChange 0 c 0 ∧ (s.record 0).body = none ∧
       c.fieldSet = some (terms, rights)) ∧
    (let c := request 2 0 2 0x10000000 0x10000000 0x281400 0xA
     let s := taking (asW0 (body .staged none)) c
     s.ChoosesRequest 0 c .amend ∧ s.MayChange 0 c 0 ∧ (s.record 0).body = some (body .staged none) ∧
       c.fieldSet = some (terms, rights) ∧ (s.record 0).recordCondition = .staged) ∧
    (let c := request 2 0 2 0x10000000 0x10000000 0x281400 0xA
     let s := taking (asW0 (body .held (some (.hold 0 0 true)))) c
     s.ChoosesRequest 0 c .amend ∧ s.MayChange 0 c 0 ∧ (s.record 0).recordCondition = .heldSettled ∧
       ¬ s.Overlaps 0 terms rights) ∧
    (let c := request 3 0 2 0 0 0 0
     let s := taking (asW0 (body .staged none)) c
     s.ChoosesRequest 0 c .enable ∧ s.MayChange 0 c 0 ∧ (s.record 0).body = some (body .staged none) ∧
       ¬ s.Overlaps 0 terms rights) := by
  refine ⟨⟨chooses_request_of _ _ _ rfl rfl (by decide) (by decide) rfl, may_change_of _ _ _ (by decide) rfl (by decide),
      rfl, by decide⟩,
    ⟨chooses_request_of _ _ _ rfl rfl (by decide) (by decide) rfl, may_change_of _ _ _ (by decide) rfl (by decide),
      rfl, by decide, rfl⟩,
    ⟨chooses_request_of _ _ _ rfl rfl (by decide) (by decide) rfl, may_change_of _ _ _ (by decide) rfl (by decide),
      held_settled _ _ _ 0 0 rfl rfl rfl, no_overlap_of (by decide +kernel) _ _⟩,
    chooses_request_of _ _ _ rfl rfl (by decide) (by decide) rfl, may_change_of _ _ _ (by decide) rfl (by decide),
      rfl, no_overlap_of (by decide +kernel) _ _⟩

theorem test_meets_HoldFreezesTheWindow :
    let c := request 4 0 2 0 0 0 0
    let s := taking (asW0 (body .live none)) c
    s.ChoosesRequest 0 c .hold ∧ s.MayChange 0 c 0 ∧ (s.record 0).body = some (body .live none) ∧
      (s.record 0).recordCondition = .liveOpen ∧ s.table.offlineView.get 0 = false :=
  ⟨chooses_request_of _ _ _ rfl rfl (by decide) (by decide) rfl, may_change_of _ _ _ (by decide) rfl (by decide),
    rfl, rfl, by decide⟩

/-- With the HOLD settled and with it unsettled. -/
theorem test_meets_ReleaseReturnsTheWindowToLive (settled : Bool) :
    let c := request 5 0 2 0 0 0 0
    let s := taking (asW0 (body .held (some (.hold 1 7 settled)))) c
    s.ChoosesRequest 0 c .release ∧ s.MayChange 0 c 0 ∧
      (s.record 0).body = some (body .held (some (.hold 1 7 settled))) ∧
      (settled = true → ¬ s.Overlaps 0 terms rights) := by
  refine ⟨chooses_request_of _ _ _ rfl rfl (by decide) (fun _ => ?_) rfl, ⟨by decide, rfl, .inr ?_⟩, rfl,
    fun _ => no_overlap_of (by cases settled <;> decide +kernel) _ _⟩
  · cases settled <;> revert ‹PortId› <;> decide
  · cases settled <;> decide

theorem test_meets_RetireFreesOrDrainsTheWindow :
    let c := request 6 0 2 0 0 0 0
    let s (b : WindowBody) := taking (asW0 b) c
    (∀ b ∈ [body .staged none, body .live none, body .held (some (.hold 0 0 true))],
      (s b).ChoosesRequest 0 c .retire ∧ (s b).MayChange 0 c 0 ∧ ((s b).record 0).body = some b ∧
        (s b).table.offlineView.get 0 = false) ∧
    ((s (body .staged none)).record 0).recordCondition = .staged ∧
    ((s (body .held (some (.hold 0 0 true)))).record 0).recordCondition = .heldSettled ∧
    ((s (body .live none)).record 0).recordCondition = .liveOpen := by
  refine ⟨fun b hb => ⟨chooses_request_of _ _ _ rfl rfl (by decide) (fun q => ?_) rfl,
    may_change_of _ _ _ (by decide) rfl (expected_two b), rfl, rfl⟩, rfl, held_settled _ _ _ 0 0 rfl rfl rfl, rfl⟩
  · show State.reset.waitingWalk q = none
    revert q; decide
where
  expected_two (b : WindowBody) : (request 6 0 2 0 0 0 0).expected = (asW0 b).generation := by
    show _ = (2 : Generation); decide

/-- A narrowing revision, and a widening one of a window whose other ports held no right. -/
theorem test_meets_SetRightsRevisesTheWindow :
    let s (c : Captured) := taking (asW0 (body .live none)) c
    (∀ c ∈ [request 7 0 2 0 0 0 6, request 7 0 2 0 0 0 0x1A],
      (s c).ChoosesRequest 0 c .setRights ∧ (s c).MayChange 0 c 0 ∧ ((s c).record 0).body = some (body .live none) ∧
        ((s c).record 0).recordCondition = .liveOpen ∧ (s c).table.offlineView.get 0 = false ∧
        ∀ r, ¬ (s c).Overlaps 0 terms r) ∧
    (∃ r, decodeRights 6 = some r ∧ Narrows rights r) ∧ (1 : Epoch) ≠ (body .live none).epoch ∧
    ∃ r, decodeRights 0x1A = some r ∧ Gains rights r ∧ ¬ Narrows rights r := by
  refine ⟨fun c hc => ?_, ⟨_, rfl, 1, .inl ⟨by decide, by decide⟩⟩, by decide, _, rfl, ⟨2, by decide, by decide⟩, ?_⟩
  · rcases List.mem_pair.mp hc with rfl | rfl <;>
    exact ⟨chooses_request_of _ _ _ rfl rfl (by decide) (by decide) rfl, may_change_of _ _ _ (by decide) rfl (by decide),
      rfl, rfl, by decide, fun r => no_overlap_of (by decide +kernel) _ _⟩
  · unfold Narrows; decide

theorem test_meets_QueryWindowReportsTheRecord :
    let s (target : Nat) (selector : Word) := taking (asW0 (body .live none)) (request 8 target 0 selector 0 0 0)
    ((s 64 0).ChoosesRequest 0 (request 8 64 0 0 0 0 0) .queryWindow ∧ 64 ≤ (request 8 64 0 0 0 0 0).target) ∧
    ((s 63 1).ChoosesRequest 0 (request 8 63 0 1 0 0 0) .queryWindow ∧ (request 8 63 0 1 0 0 0).target = 63 ∧
      ((request 8 63 0 1 0 0 0).params.get 0).toNat < 2 ∧ ((s 63 1).port 0).role = .supervisor) ∧
    ((s 0 2).ChoosesRequest 0 (request 8 0 0 2 0 0 0) .queryWindow ∧
      2 ≤ ((request 8 0 0 2 0 0 0).params.get 0).toNat) ∧
    (let t := (s 63 1).modifyPort 0 fun u => { u with role := .ordinary }
     t.ChoosesRequest 0 (request 8 63 0 1 0 0 0) .queryWindow ∧ (t.port 0).role ≠ .supervisor ∧
       (t.record 63).body = none) ∧
    (let t := (s 0 1).modifyPort 0 fun u => { u with role := .ordinary }
     (t.port 0).role ≠ .supervisor ∧ (t.record 0).body = some (body .live none) ∧
       (body .live none).rights.get 0 = .readWrite) ∧
    ∀ e, ({ body .live none with counts := vfill 2 23 } : WindowBody).counts.get e ≤ 23 := by
  refine ⟨⟨chooses_request_of _ _ _ rfl rfl (by decide) (by decide) rfl, by decide⟩,
    ⟨chooses_request_of _ _ _ rfl rfl (by decide) (by decide) rfl, by decide, by decide, by decide⟩,
    ⟨chooses_request_of _ _ _ rfl rfl (by decide) (by decide) rfl, by decide⟩,
    ⟨chooses_request_of _ _ _ rfl rfl (by decide) (by decide) rfl, by decide, by decide⟩, ?_, by decide⟩
  exact ⟨by decide, rfl, by decide⟩

theorem test_meets_FieldsAreCarriedInTheParameters :
    (request 1 0 0 0x10000000 0x10000000 0x281400 0xA).fieldSet = some (terms, rights) ∧ terms.IsValid ∧
    (let r := asW0 (body .live none)
     let q := windowWords r 0
     r.body = some (body .live none) ∧ (request 1 0 0 (q.get 1) (q.get 2) (q.get 3) (q.get 4)).params.get 3 = q.get 4) := by
  unfold Terms.IsValid; exact ⟨by decide, by decide, by decide⟩

/-! ### The statements' hypotheses can be met: port and device requests -/

/-- Port q in a state. -/
def portIn (q : PortId) (st : PortState) : State := State.reset.modifyPort q fun u => { u with state := st }

theorem asks_of (s : State) (p : PortId) (c : Captured) (k : RequestKind) (h1 : s.requestOf p = some c)
    (h2 : c.kind = some k) : s.Asks p c k := ⟨h1, h2⟩

theorem test_meets_PortRequestsAreExaminedInOrder :
    let ordinary (c : Captured) := (asking State.reset 0 c).modifyPort 0 fun u => { u with role := .ordinary }
    (∀ n ∈ [(9, RequestKind.portOnline), (10, .portOffline), (11, .fence), (12, .unfence), (13, .clearFault),
        (14, .queryPort)],
      let c := request n.1 5 0 0 0 0 0
      c.target = (5 : PortId).val ∧ (ordinary c).Asks 0 c n.2 ∧ ((ordinary c).port 0).role ≠ .supervisor) ∧
    (let c := request 10 0 0 0 0 0 0
     c.target = (0 : PortId).val ∧ (asking State.reset 0 c).Asks 0 c .portOffline ∧
       ((asking State.reset 0 c).port 0).role = .supervisor) ∧
    (let c := request 10 0 0 0 0 0 0
     let s := (asking State.reset 1 c).modifyPort 1 fun u => { u with role := .supervisor }
     c.target = (0 : PortId).val ∧ s.Asks 1 c .portOffline ∧ (s.port 1).role = .supervisor) ∧
    (let c := request 10 5 0 0 0 0 0
     (asking State.reset 0 c).Asks 0 c .portOffline ∧ ((asking State.reset 0 c).port 5).state = .offline ∧
       ((asking (portIn 5 .quiescing) 0 c).port 5).state = .quiescing) ∧
    (let c := request 9 5 0 0 0 0 0
     (asking (portIn 5 .active) 0 c).Asks 0 c .portOnline ∧ ((asking (portIn 5 .active) 0 c).port 5).state ≠ .offline) ∧
    (let c := request 11 5 0 0 0 0 0
     (asking (portIn 5 .fenced) 0 c).Asks 0 c .fence ∧ ((asking (portIn 5 .fenced) 0 c).port 5).state ≠ .active) ∧
    (let c := request 12 5 0 0 0 0 0
     let s := asking ((portIn 5 .fenced).offerFault 5 aFault) 0 c
     s.Asks 0 c .unfence ∧ (s.port 5).state = .fenced ∧ (s.port 5).fault ≠ none) ∧
    (let c := request 14 5 0 6 0 0 0
     (asking State.reset 0 c).Asks 0 c .queryPort ∧ 6 ≤ (c.params.get 0).toNat) := by
  unfold State.Asks; decide

theorem test_meets_PortsGoOnlineAndOffline :
    (let c := request 9 5 0 0 0 0 0
     (asking State.reset 0 c).Asks 0 c .portOnline ∧ c.target = (5 : PortId).val ∧
       ((asking State.reset 0 c).port 0).role = .supervisor ∧ ((asking State.reset 0 c).port 5).state = .offline) ∧
    (let c := request 10 5 0 0 0 0 0
     let s := asking (portIn 5 .fenced) 0 c
     s.Asks 0 c .portOffline ∧ c.target = (5 : PortId).val ∧ (s.port 0).role = .supervisor ∧
       (s.port 5).state = .fenced ∧ (s.port 5).current = .idle ∧ (s.port 5).occupancyCopy = 0) ∧
    (((portIn 5 .active).modifyPort 5 fun u => { u with occupancyCopy := 1 }).port 5).occupancyCopy ≠ 0 := by
  unfold State.Asks; decide

theorem test_meets_FenceUnfenceAndClearFault :
    (let c := request 11 5 0 0 0 0 0
     (asking (portIn 5 .active) 0 c).Asks 0 c .fence ∧ c.target = (5 : PortId).val ∧
       ((asking (portIn 5 .active) 0 c).port 0).role = .supervisor ∧
       ((asking (portIn 5 .active) 0 c).port 5).state = .active) ∧
    (let c := request 12 5 0 0 0 0 0
     (asking (portIn 5 .fenced) 0 c).Asks 0 c .unfence ∧ ((asking (portIn 5 .fenced) 0 c).port 5).state = .fenced ∧
       ((asking (portIn 5 .fenced) 0 c).port 5).fault = none) ∧
    (let c := request 13 5 0 0 0 0 0
     (asking State.reset 5 c).Asks 5 c .clearFault ∧ c.target = (5 : PortId).val) := by
  unfold State.Asks; decide

theorem test_meets_QueryPortReportsTheUnit :
    ∀ k : Fin 6,
      let c := request 14 0 0 (BitVec.ofNat 32 k.val) 0 0 0
      let s := asking (hit.setReservation 0 (some { granule := 0x010000040, window := 1 })) 0 c
      s.Asks 0 c .queryPort ∧ c.target = (0 : PortId).val ∧ (c.params.get 0).toNat = k.val ∧
        (s.engine.store.filter fun e => e.port = 0).length ≤ 8 ∧ (s.port 0).lookaside.entries.get 0 = some copy := by
  unfold State.Asks; decide

theorem test_meets_FaultRecordLayout :
    (255 : Nat) ≤ 255 ∧ ∀ n m, ({ aFault with parts := some (3, 4) } : FaultInfo).parts = some (n, m) → n < 4 ∧ m < 8 :=
  ⟨le_refl _, fun n m h => by simp at h; omega⟩

/-- Each selector with the least and the greatest value of its range, and the values beside them. -/
theorem test_meets_SetParamSetsTheParameter :
    (let c := request 15 9 0 0 0 0 0
     (asking State.reset 0 c).Asks 0 c .setParam ∧ 9 ≤ c.target) ∧
    (let c := request 15 8 0 0 0 0 0
     let s := (asking State.reset 0 c).modifyPort 0 fun u => { u with role := .ordinary }
     s.Asks 0 c .setParam ∧ c.target < 9 ∧ (s.port 0).role ≠ .supervisor) ∧
    (∀ n ∈ [(0, 0), (0, 1), (0, 255), (0, 256), (1, 0), (1, 1), (1, 1023), (1, 1024), (2, 0), (2, 15), (2, 16), (3, 0),
        (3, 3), (8, 3), (8, 4)],
      let c := request 15 n.1 0 (BitVec.ofNat 32 n.2) 0 0 0
      (asking State.reset 0 c).Asks 0 c .setParam ∧ ((asking State.reset 0 c).port 0).role = .supervisor ∧
        c.target = n.1 ∧ (c.params.get 0).toNat = n.2) := by
  unfold State.Asks; decide

theorem test_meets_ClearDeviceFaultEmptiesTheRecord :
    let c := request 16 0 0 0 0 0 0
    let s := asking (State.reset.offerDeviceFault aFault 4) 0 c
    s.Asks 0 c .clearDeviceFault ∧ (s.port 0).role = .supervisor ∧
      (s.modifyPort 0 fun u => { u with role := .ordinary }).Asks 0 c .clearDeviceFault ∧
      ((s.modifyPort 0 fun u => { u with role := .ordinary }).port 0).role ≠ .supervisor := by
  unfold State.Asks; decide

theorem test_meets_QueryDeviceReportsTheDevice :
    (∀ k : Fin 3,
      let c := request 17 0 0 (BitVec.ofNat 32 k.val) 0 0 0
      (asking State.reset 0 c).Asks 0 c .queryDevice ∧ ((asking State.reset 0 c).port 0).role = .supervisor ∧
        (c.params.get 0).toNat = k.val) ∧
    (let s := asking (storing State.reset 8) 0 (request 17 0 0 0 0 0 0)
     s.ParametersInRange ∧ s.StoreWithinBounds ∧ s.WaitersWait) ∧
    ((portIn 1 .active).port 1).role ≠ .supervisor := by
  unfold State.Asks State.ParametersInRange State.StoreWithinBounds
  exact ⟨by decide, ⟨by decide, by decide, List.nodup_nil, fun _ h => nomatch h⟩, by decide⟩

/-! ### The statements' hypotheses can be met: the system bus -/

theorem presenting_presents (s : State) (r : BusAccess) (st : List StoreEntry) (h : r.abandoned = false) :
    (presenting s r st).Presents r := ⟨rfl, h, rfl⟩

/-- With no other entry in the store and every other port idle, nothing else waits for the bus. -/
theorem none_else_waits {s : State} {p : PortId} (h : s.engine.extRequest = false)
    (hs : ∀ e ∈ s.engine.store, e.port = p) (hc : ∀ q, q ≠ p → (s.port q).current = .idle) : s.NoneElseWaits p := by
  refine ⟨h, fun q hq hcand => ?_⟩
  rcases hcand with ⟨e, he, rfl⟩ | ⟨a, adm, ho, _⟩
  · exact hq (hs e he)
  · rw [hc q hq] at ho; cases ho

/-- With an empty store and every port idle, no port has a candidate. -/
theorem no_candidate {s : State} (hs : s.engine.store = []) (hc : ∀ q, (s.port q).current = .idle) (q : PortId) :
    ¬ s.HasCandidate q := by
  rintro (⟨e, he, _⟩ | ⟨a, adm, ho, _⟩)
  · rw [hs] at he; cases he
  · rw [hc q] at ho; cases ho

theorem no_offer {s : State} (hc : ∀ q, (s.port q).current = .idle) (q : PortId) (a : Access) (adm : Admission) :
    ¬ s.OffersAccess q a adm := fun h => by rw [State.OffersAccess, hc q] at h; cases h.1

/-- The last part but one of an access and of a store entry. -/
theorem test_meets_PartAckStartsTheNextPart :
    ((presenting State.reset (splitWrite 2) []).Presents (splitWrite 2) ∧ 2 + 1 < (splitWrite 2).partsTotal ∧
      (splitWrite 2).fromStore = false) ∧
    (let e := { entryK with width := .w8, partsDone := 2 }
     let s := presenting State.reset (ofEntry e) [{ entryK with port := 1 }, e, entryK]
     s.Presents (ofEntry e) ∧ 2 + 1 < (ofEntry e).partsTotal ∧ (ofEntry e).fromStore = true ∧
       s.OldestEntry 4 e [{ entryK with port := 1 }] [entryK]) ∧
    (2 ≠ (presenting State.reset (splitWrite 2) []).engine.presented ∧ State.reset.engine.part = none) :=
  ⟨⟨presenting_presents _ _ _ rfl, by decide, rfl⟩,
    ⟨presenting_presents _ _ _ rfl, by decide, rfl, rfl, rfl, by decide⟩, by decide, rfl⟩

/-- A linked read of I0 whose one part is on the bus. -/
def linkedRead : BusAccess where
  origin := 0
  fromStore := false
  kind := .linkedRead
  size := .four
  sysAddr := 0x000000040
  data := vfill 4 none
  width := .w32
  window := 0
  epoch := 0
  partsTotal := 1
  partsDone := 0
  retryCount := 0
  retryLimit := 3
  assembled := vfill 4 none
  abandoned := false

theorem test_meets_PartAckFinishesTheAccess :
    (let s := presenting State.reset (splitWrite 3) []
     s.Presents (splitWrite 3) ∧ (splitWrite 3).partsTotal ≤ 3 + 1 ∧ (splitWrite 3).fromStore = false ∧
       (∃ a adm, (s.port 3).current = .onBus a adm) ∧ s.KeepsState 3 ∧ s.NoneElseWaits 3 ∧ s.NoEntry 3) ∧
    (let s := presenting State.reset linkedRead []
     s.Presents linkedRead ∧ (∃ a adm, (s.port 0).current = .onBus a adm) ∧ s.KeepsState 0 ∧
       s.monitor.permission.get 0 = true ∧ s.monitor.linkEpoch.get 0 = some 0) :=
  ⟨⟨presenting_presents _ _ _ rfl, by decide, rfl, ⟨_, _, rfl⟩, .inl (by decide),
      none_else_waits rfl (fun _ he => nomatch he) (by decide), (fun _ he => nomatch he)⟩,
    presenting_presents _ _ _ rfl, ⟨_, _, rfl⟩, .inl (by decide), by decide, by decide⟩

/-- I1's posted write waits for room. -/
def waitingWrite (s : State) : State :=
  (s.modifyPort 1 fun u =>
    { u with current := .waiting (acc .write .four 0x10000000)
              { window := 1, epoch := 0, sysAddr := 0x010000000, width := .w32, linkable := true, posted := true } true }).modifyEngine
    fun e => { e with waitingList := [1] }

/-- I4's entry finishes: it is the only one, while I1's write waits for a sixteenth and for a ninth place, and alone. -/
theorem test_meets_PartAckFinishesTheEntry :
    let e1 : StoreEntry := { entryK with port := 1 }
    let s (others : List StoreEntry) := presenting (waitingWrite State.reset) (ofEntry entryK) (entryK :: others)
    let alone := presenting State.reset (ofEntry entryK) [entryK]
    (∀ others, (s others).Presents (ofEntry entryK) ∧ (ofEntry entryK).partsTotal ≤ 0 + 1 ∧
      (ofEntry entryK).fromStore = true ∧ (ofEntry entryK).kind = .write ∧ (s others).OldestEntry 4 entryK [] others ∧
      (s others).WaitersWait) ∧
    ((List.replicate 7 e1).length < 16 ∧ ((List.replicate 7 e1).filter fun d => d.port = 1).length < 8) ∧
    ¬ ((List.replicate 8 e1).filter fun d => d.port = 1).length < 8 ∧
    (alone.engine.extRequest = false ∧ alone.engine.waitingList = [] ∧ ∀ q a adm, ¬ alone.OffersAccess q a adm) := by
  refine ⟨fun others => ⟨presenting_presents _ _ _ rfl, by decide, rfl, rfl, ⟨rfl, rfl, (fun _ h => nomatch h)⟩,
    List.nodup_singleton _, fun q hq => ?_⟩, by decide, by decide, rfl, rfl, no_offer (by decide)⟩
  obtain rfl : q = 1 := List.mem_singleton.mp hq
  exact ⟨_, _, rfl, rfl⟩

theorem test_meets_FailedAccessAnswersError :
    let last : BusAccess := { splitWrite 3 with retryCount := 3 }
    let s := ranOut (presenting State.reset last [])
    s.Presents last ∧ s.EndsInFailure last (.partErr 1) .targetError ∧
      s.EndsInFailure last .responseTimerExpiry .targetTimeout ∧ s.EndsInFailure last (.partRty 1) .retryExhausted ∧
      last.fromStore = false ∧ (∃ a adm, (s.port 3).current = .onBus a adm) ∧ s.KeepsState 3 ∧ s.NoneElseWaits 3 ∧
      s.NoEntry 3 :=
  ⟨⟨rfl, rfl, rfl⟩, .inl ⟨rfl, rfl⟩, .inr (.inl ⟨rfl, rfl, 64, 65, rfl, by decide⟩), .inr (.inr ⟨rfl, rfl, by decide⟩),
    rfl, ⟨_, _, rfl⟩, .inl (by decide), none_else_waits rfl (fun _ he => nomatch he) (by decide), (fun _ he => nomatch he)⟩

/-- Of the port's epoch and of another. -/
theorem test_meets_FailedEntryIsRouted :
    let s (epoch : PortEpoch) :=
      presenting (State.reset.modifyPort 4 fun u => { u with state := .active, epoch := epoch }) (ofEntry entryK) [entryK]
    ∀ epoch ∈ [3, 4],
      (s epoch).Presents (ofEntry entryK) ∧ (s epoch).EndsInFailure (ofEntry entryK) (.partErr 1) .targetError ∧
        (ofEntry entryK).fromStore = true ∧ (s epoch).OldestEntry (ofEntry entryK).origin entryK [] [] ∧
        ((s epoch).port 4).epoch = epoch ∧ (s epoch).engine.extRequest = false ∧
        (s epoch).engine.waitingList = [] ∧ (s epoch).WaitersWait ∧ ∀ q a adm, ¬ (s epoch).OffersAccess q a adm := by
  intro s epoch he
  refine ⟨presenting_presents _ _ _ rfl, .inl ⟨rfl, rfl⟩, rfl, ⟨rfl, rfl, (fun _ h => nomatch h)⟩, rfl, rfl, rfl,
    ⟨List.nodup_nil, fun _ h => nomatch h⟩, no_offer fun q => ?_⟩
  rcases List.mem_pair.mp he with rfl | rfl <;> revert q <;> decide

/-- While I1's write waits for the place that the entry leaves, and for a ninth. -/
theorem test_meets_FailedEntryIsRouted_waiting :
    let e1 : StoreEntry := { entryK with port := 1 }
    let s (others : List StoreEntry) := presenting (waitingWrite State.reset) (ofEntry entryK) (entryK :: others)
    (∀ others, (s others).Presents (ofEntry entryK) ∧ (s others).EndsInFailure (ofEntry entryK) (.partErr 1) .targetError ∧
      (s others).OldestEntry 4 entryK [] others ∧ (s others).engine.waitingList = [] ++ 1 :: [] ∧
      (s others).WaitersWait) ∧
    ((List.replicate 7 e1).length < 16 ∧ ((List.replicate 7 e1).filter fun d => d.port = 1).length < 8) ∧
    ¬ ((List.replicate 8 e1).filter fun d => d.port = 1).length < 8 := by
  refine ⟨fun others => ⟨presenting_presents _ _ _ rfl, .inl ⟨rfl, rfl⟩, ⟨rfl, rfl, (fun _ h => nomatch h)⟩, rfl,
    List.nodup_singleton _, fun q hq => ?_⟩, by decide, by decide⟩
  obtain rfl : q = 1 := List.mem_singleton.mp hq
  exact ⟨_, _, rfl, rfl⟩

/-- Port 0 retries, its access of this kind kept in the record, the bus with `holder`. -/
def retrying (kind : AccessKind) (holder : BusHolder) : State :=
  (presenting State.reset { linkedRead with kind := kind } []).modifyEngine fun e =>
    { e with holder := holder, part := none, timer := none, retryWaiters := [0], retryTick := true }

theorem test_meets_RetriedPartStartsAgain :
    ((presenting State.reset { splitWrite 2 with retryCount := 2 } []).Presents { splitWrite 2 with retryCount := 2 } ∧
      2 + 1 ≤ ({ splitWrite 2 with retryCount := 2 } : BusAccess).retryLimit) ∧
    ((retrying .read .external).engine.retryTick = true ∧ (retrying .read .external).engine.holder ≠ .free) ∧
    (∀ k ∈ [AccessKind.read, .conditionalWrite],
      (retrying k .free).engine.retryTick = true ∧ (retrying k .free).engine.holder = .free ∧
        (retrying k .free).engine.extRequest = false ∧
        (retrying k .free).engine.access = some { linkedRead with kind := k } ∧
        0 ∈ (retrying k .free).engine.rotation ∧ (retrying k .free).NoEntry 0 ∧
        (∃ a adm, ((retrying k .free).port 0).current = .onBus a adm) ∧ (retrying k .free).KeepsState 0 ∧
        (retrying k .free).engine.part = none ∧ (retrying k .free).engine.timer = none ∧
        ∀ q, ¬ (retrying k .free).HasCandidate q) ∧
    ((retrying .conditionalWrite .free).setReservation 0 (some { granule := 0x000000040, window := 0 })).HoldsGranule 0
      0x000000040 ∧
    (¬ (retrying .conditionalWrite .free).HoldsGranule 0 0x000000040) ∧
    (let e := { entryK with port := 0 }
     ¬ ((presenting State.reset (ofEntry e) [e]).modifyEngine fun g => { g with retryWaiters := [0] }).NoEntry 0) := by
  refine ⟨⟨presenting_presents _ _ _ rfl, by decide⟩, ⟨by decide, by decide⟩, fun k _ =>
    ⟨by decide +revert, rfl, rfl, rfl, by decide +revert, (fun _ he => nomatch he), ⟨_, _, rfl⟩, .inl (by simp [active_at]),
      rfl, rfl, fun q => ?_⟩, ⟨_, rfl, by decide⟩, (fun ⟨_, h, _⟩ => nomatch h), fun h => h _ (List.mem_singleton.mpr rfl) rfl⟩
  rintro (⟨e, he, _⟩ | ⟨a, adm, ho, _⟩)
  · cases he
  · revert ho; by_cases hq : q = 0
    · subst hq; intro ho; cases ho
    · intro ho
      have : ((retrying k .free).port q).current = .idle := by
        clear ho; cases k <;> revert q <;> decide
      rw [this] at ho; cases ho
where
  active_at (k : AccessKind) : ((retrying k .free).port 0).state = .active := rfl

theorem test_meets_AbandonedAccessEnds :
    let r := { splitWrite 2 with abandoned := true }
    let s := (presenting State.reset r []).setCurrent 3 .idle
    s.engine.access = some r ∧ r.abandoned = true ∧ s.engine.part = some (partAt r r.partsDone) ∧
      s.engine.presented = 1 ∧ (ranOut s).TimerRanOut ∧ s.engine.extRequest = false ∧ ∀ q, ¬ s.HasCandidate q :=
  ⟨rfl, rfl, rfl, rfl, ⟨64, 65, rfl, by decide⟩, rfl, no_candidate rfl (by decide)⟩

/-- The external master holds the bus. -/
def masterHolds (s : State) : State :=
  s.modifyEngine fun e => { e with holder := .external, extRequest := true, extGrant := true }

theorem test_meets_ExternalMasterSharesTheBus :
    (State.reset.engine.extRequest = false ∧ State.reset.engine.holder = .free) ∧
    ((presenting State.reset linkedRead []).engine.extRequest = false ∧
      (presenting State.reset linkedRead []).engine.holder ≠ .free ∧
      (presenting State.reset linkedRead []).engine.holder ≠ .external) ∧
    ((masterHolds State.reset).engine.holder = .external ∧ (masterHolds State.reset).engine.access = none ∧
      ∀ q, ¬ (masterHolds State.reset).HasCandidate q) ∧
    ((masterHolds (retrying .read .free)).engine.holder = .external ∧
      (masterHolds (retrying .read .free)).engine.access = some { linkedRead with kind := .read } ∧
      0 ∈ (masterHolds (retrying .read .free)).engine.retryWaiters) :=
  ⟨by decide, by decide, ⟨rfl, rfl, no_candidate rfl (by decide)⟩, rfl, rfl, by decide⟩

/-- I1 and I2 offer an access of a kind, I2 before I1 in the rotation order. -/
def offering (kind : AccessKind) (rank1 : Nat) : State :=
  let adm : Admission := { window := 2, epoch := 0, sysAddr := 0x008000020, width := .w32, linkable := true, posted := false }
  let put (s : State) (p : PortId) := s.setCurrent p (.waiting (acc kind .four 0x20000020) adm true)
  let s := (masterHolds (put (put State.reset 1) 2)).modifyEngine fun e => { e with rotation := [0, 2, 1, 3, 4, 5] }
  { s with config := { s.config with ranks := vput s.config.ranks 1 rank1 } }

/-- I0's access of a kind waits to be granted again, off the retry waiters, while I1 and I2 offer theirs. -/
def resuming (kind : AccessKind) : State :=
  ((offering .read 1).setCurrent 0 (((retrying kind .free).port 0).current)).modifyEngine fun e =>
    { e with access := some { linkedRead with kind := kind } }

/-- Of two ports of one rank the first in the order, and of two ranks the higher; with a store entry, with a reservation and
without; and the port of a record that is present. -/
theorem test_meets_ArbiterGrantsByRankThenRotation :
    ((offering .read 1).engine.holder = .external ∧ (offering .read 1).engine.access = none ∧
      (offering .read 1).GrantsFirst 2) ∧
    (offering .read 2).GrantsFirst 1 ∧ (offering .read 1).NoEntry 2 ∧
    (∃ a adm, (offering .read 1).OffersAccess 2 a adm) ∧
    (∃ a adm, (offering .conditionalWrite 1).OffersAccess 2 a adm ∧ a.kind = .conditionalWrite) ∧
    ((offering .conditionalWrite 1).setReservation 2 (some { granule := 0x008000020, window := 2 })).HoldsGranule 2
      0x008000020 ∧
    ¬ (offering .conditionalWrite 1).HoldsGranule 2 0x008000020 ∧ (offering .conditionalWrite 1).KeepsState 2 ∧
    ((offering .read 1).modifyEngine fun e => { e with store := [entryK] }).OldestEntry 4 entryK [] [] ∧
    (∀ kind, (resuming kind).engine.holder = .external ∧ (resuming kind).GrantsFirst 0 ∧
      (resuming kind).engine.access = some { linkedRead with kind := kind }) ∧
    ((resuming .conditionalWrite).setReservation 0 (some { granule := 0x000000040, window := 0 })).HoldsGranule 0
      0x000000040 := by
  have idle (q : PortId) (k : AccessKind) (n : Nat) (h1 : q ≠ 1) (h2 : q ≠ 2) : ((offering k n).port q).current = .idle := by
    have : q = 0 ∨ q = 3 ∨ q = 4 ∨ q = 5 := by revert q; decide
    rcases this with rfl | rfl | rfl | rfl <;> rfl
  have only (q : PortId) (n : Nat) (h : (offering .read n).Competes q) : q = 1 ∨ q = 2 := by
    by_contra hq
    rcases h.1 with (⟨e, he, _⟩ | ⟨a, adm, ho, _⟩) | ⟨r, a, adm, hr, _⟩
    · cases he
    · rw [idle q _ _ (fun h => hq (.inl h)) (fun h => hq (.inr h))] at ho; cases ho
    · cases hr
  have own (kind : AccessKind) (q : PortId) (h : (resuming kind).Competes q) : q = 0 := (h.2.2 _ rfl).symm
  refine ⟨⟨rfl, rfl, ⟨.inl (.inr ⟨_, _, rfl, rfl⟩), (fun h => nomatch h), (fun _ h => nomatch h)⟩, fun q hq => ?_, [0], [1, 3, 4, 5], rfl, fun q hq hc => ?_⟩,
    ⟨⟨.inl (.inr ⟨_, _, rfl, rfl⟩), (fun h => nomatch h), (fun _ h => nomatch h)⟩, fun q hq => ?_, [0, 2], [3, 4, 5], rfl, fun q hq hc => ?_⟩,
    (fun _ he => nomatch he), ⟨_, _, rfl, rfl⟩, ⟨_, _, ⟨rfl, rfl⟩, rfl⟩, ⟨_, rfl, by decide⟩, (fun ⟨_, h, _⟩ => nomatch h),
    .inl (by decide), ⟨rfl, rfl, (fun _ h => nomatch h)⟩, fun kind => ⟨rfl, ⟨⟨.inr ⟨_, _, _, rfl, rfl, rfl, rfl, rfl⟩,
      (fun h => nomatch h), (fun _ h => by cases h; rfl)⟩, (fun q hq => by rw [own kind q hq]), [], [2, 1, 3, 4, 5], rfl,
      (fun _ h => nomatch h)⟩, rfl⟩, ⟨_, rfl, by decide⟩⟩
  · rcases only q 1 hq with rfl | rfl <;> decide
  · obtain rfl := List.mem_singleton.mp hq
    exact absurd (only 0 1 hc) (by decide)
  · rcases only q 2 hq with rfl | rfl <;> decide
  · rcases List.mem_pair.mp hq with rfl | rfl
    · exact absurd (only 0 2 hc) (by decide)
    · decide

theorem test_meets_FreeBusTakesTheNewCandidate :
    let adm (posted : Bool) : Admission :=
      { window := 1, epoch := 0, sysAddr := 0x010000000, width := .w32, linkable := true, posted := posted }
    let a := acc .write .four 0x10000000
    let s := walking a [.admitted copy]
    (s.engine.holder = .free ∧ s.engine.access = none ∧ s.NoneElseWaits 0 ∧ s.NoEntry 0 ∧ 0 ∉ s.engine.retryWaiters ∧
      0 ∈ s.engine.rotation ∧ s.HasRoom 0 ∧ a.kind ≠ .conditionalWrite) ∧
    (s.toPort 0 = .admitted copy :: [] ∧ (s.port 0).current = .walking a true ∧ (s.port 0).staleWalk = false ∧
      adm false = admissionOf copy a ∧
      adm true = admissionOf { copy with terms := { terms with posting := .posted } } a) ∧
    ∀ posted, (adding posted State.reset).toTable 0 = .addition 1 0 :: [] ∧
      ((adding posted State.reset).record 1).body = some (body .live none) ∧
      ((adding posted State.reset).port 0).current = .waiting a (adm posted) false ∧
      (adding posted State.reset).NoneElseWaits 0 ∧ (adding posted State.reset).HasRoom 0 := by
  intro adm a s
  refine ⟨⟨rfl, rfl, none_else_waits rfl (fun _ he => nomatch he) (by decide), (fun _ he => nomatch he), by decide, by decide,
    ⟨by decide, by decide⟩, by decide⟩, ⟨rfl, rfl, rfl, by decide, by decide⟩, fun posted => ⟨rfl, rfl, rfl,
    none_else_waits rfl (fun _ he => nomatch he) (by cases posted <;> decide), ?_⟩⟩
  cases posted <;> exact ⟨by decide, by decide⟩

/-! ### The statements' hypotheses can be met: port life and the laws -/

/-- I5 is QUIESCING for I0, with a current access and a message from the table. -/
def quiescing (c : CurrentAccess) (copies : Nat) (ms : List TableMessage) : State :=
  (State.reset.modifyPort 5 fun u =>
    { u with state := .quiescing, current := c, occupancyCopy := copies, offlineRequester := some (0, 1) }).setToPort 5 ms

/-- The access of I5 on the bus, a linked read in one part. -/
def quiescingRead : BusAccess := { linkedRead with origin := 5 }

theorem test_meets_QuiesceCompletesInTheEvent :
    let a := acc .read .four 0x10000000
    let park : CurrentAccess := .parked a 1 { limit := 32, ticks := 33 }
    let reported (s : State) := { s with links := { s.links with reports := vput s.links.reports 5 1 } }
    ((reported (quiescing .idle 1 [])).links.reports.get 5 = 0 + 1 ∧
      ((reported (quiescing .idle 1 [])).port 5).state = .quiescing ∧
      ((reported (quiescing .idle 1 [])).port 5).current = .idle ∧
      ((reported (quiescing .idle 1 [])).port 5).occupancyCopy - 1 = 0) ∧
    ((reported (quiescing .idle 2 [])).port 5).occupancyCopy - 1 ≠ 0 ∧
    (∀ m ∈ [.retireNotice 1, .noWindow, .denied copy .denied],
      (quiescing park 0 [m]).toPort 5 = m :: [] ∧ ((quiescing park 0 [m]).port 5).state = .quiescing ∧
        ((quiescing park 0 [m]).port 5).occupancyCopy = 0 ∧ ((quiescing park 0 [m]).port 5).current = park ∧
        ((quiescing (.walking a true) 0 [m]).port 5).current = .walking a true ∧
        ((quiescing (.walking a true) 0 [m]).port 5).staleWalk = false) ∧
    (let s := ranOut (presenting (quiescing .idle 0 []) quiescingRead [])
     (s.port 5).state = .quiescing ∧ (s.port 5).occupancyCopy = 0 ∧ s.NoneElseWaits 5 ∧ s.NoEntry 5 ∧
       s.Presents quiescingRead ∧ quiescingRead.origin = 5 ∧ quiescingRead.fromStore = false ∧
       (∃ a adm, (s.port 5).current = .onBus a adm) ∧ quiescingRead.partsTotal ≤ 0 + 1 ∧
       s.EndsInFailure quiescingRead .responseTimerExpiry .targetTimeout) ∧
    (let w := acc .conditionalWrite .four 0x10000000
     let s := quiescing (.walking w true) 0 [.admitted copy]
     (s.port 5).state = .quiescing ∧ s.NoneElseWaits 5 ∧ s.NoEntry 5 ∧ s.engine.holder = .free ∧
       s.engine.access = none ∧ 5 ∉ s.engine.retryWaiters ∧ 5 ∈ s.engine.rotation ∧
       s.toPort 5 = .admitted copy :: [] ∧ (s.port 5).current = .walking w true ∧ (s.port 5).staleWalk = false ∧
       w.kind = .conditionalWrite ∧ ¬ s.HoldsGranule 5 (admissionOf copy w).sysAddr) :=
  ⟨by decide, by decide, fun _ _ => ⟨rfl, rfl, rfl, rfl, rfl, rfl⟩,
    ⟨rfl, rfl, none_else_waits rfl (fun _ he => nomatch he) (by decide), (fun _ he => nomatch he), ⟨rfl, rfl, rfl⟩, rfl, rfl,
      ⟨_, _, rfl⟩, by decide, .inr (.inl ⟨rfl, rfl, 64, 65, rfl, by decide⟩)⟩,
    rfl, none_else_waits rfl (fun _ he => nomatch he) (by decide), (fun _ he => nomatch he), rfl, rfl, by decide, by decide,
    rfl, rfl, rfl, rfl, fun ⟨_, h, _⟩ => nomatch h⟩

/-- No port is QUIESCING at reset, and one that quiesces with its access under way does not meet the condition. -/
theorem test_meets_QuiesceCompletesInTheEvent_law :
    State.reset.NoneLeftQuiesced ∧
      (quiescing (.walking (acc .read .four 0x10000000) true) 0 []).NoneLeftQuiesced ∧
      ∃ t, step State.reset = .next t :=
  ⟨by unfold State.NoneLeftQuiesced PortUnit.QuiesceMet; decide,
    by unfold State.NoneLeftQuiesced PortUnit.QuiesceMet; decide, _, rfl⟩

theorem test_meets_PortResetAbandonsTheAccess :
    let adm : Admission := { window := 1, epoch := 0, sysAddr := 0x010000000, width := .w32, linkable := true, posted := false }
    ((State.reset.port 0).resetInput = false ∧ (State.reset.port 0).current = .idle) ∧
    ((unit0 fun u => { u with current := .waiting (acc .read .four 0x10000000) adm true }).port 0).current =
      .waiting (acc .read .four 0x10000000) adm true ∧
    (let s := presenting State.reset linkedRead []
     (∃ a adm, (s.port 0).current = .onBus a adm) ∧ s.engine.access = some linkedRead ∧ linkedRead.origin = 0 ∧
       linkedRead.fromStore = false ∧ linkedRead.abandoned = false ∧ s.engine.part ≠ none) ∧
    (let s := retrying .read .free
     (∃ a adm, (s.port 0).current = .onBus a adm) ∧ s.engine.part = none ∧ s.engine.holder = .free ∧
       s.NoneElseWaits 0 ∧ s.NoEntry 0) ∧
    (retrying .read .external).engine.holder ≠ .free ∧
    ((unit0 fun u => { u with resetInput := true }).port 0).resetInput = true ∧
    (((quiescing .idle 0 []).port 5).state = .quiescing ∧ ((quiescing .idle 0 []).port 5).occupancyCopy = 0) :=
  ⟨⟨rfl, rfl⟩, rfl, ⟨⟨_, _, rfl⟩, rfl, rfl, rfl, rfl, by decide⟩,
    ⟨⟨_, _, rfl⟩, rfl, rfl, none_else_waits rfl (fun _ he => nomatch he) (by decide), (fun _ he => nomatch he)⟩,
    by decide, rfl, rfl, rfl⟩

/-- A full record with its line, a COMPLETE slot with its line, and an occupied device record with its line. -/
theorem test_meets_LinesKeepFollowingRecords :
    let s := ((unit0 fun u => u.offerFault aFault).modifySlot 1 fun sl =>
      { sl with state := .complete, doneLine := true }).offerDeviceFault aFault 4
    s.LinesFollowRecords ∧ ∃ t, step s = .next t :=
  ⟨by unfold State.LinesFollowRecords; decide, _, rfl⟩

/-- A store at both its bounds. -/
theorem test_meets_StoreKeepsWithinBounds :
    let s := State.reset.modifyEngine fun e =>
      { e with store := List.replicate 8 entryK ++ List.replicate 8 { entryK with port := 1 } }
    s.StoreWithinBounds ∧ ∃ t, step s = .next t :=
  ⟨by unfold State.StoreWithinBounds; decide, _, rfl⟩

/-- The records other than W0 are FREE in a state with W0's body b. -/
theorem only_w0 {s : State} (h : ∀ v, v ≠ 0 → (s.record v).body = none) {w : WindowId} {b : WindowBody}
    (hb : (s.record w).body = some b) : w = 0 := by
  by_contra hw
  rw [h w hw] at hb; cases hb

/-- W0 in state LIVE, with a reservation of I0 naming it. -/
def reserved : State :=
  (unit0 fun u => { u with state := .fenced }).setReservation 0 (some { granule := 0x000000040, window := 0 })

theorem reserved_others_free : ∀ v, v ≠ 0 → (reserved.record v).body = none := by decide +kernel

theorem test_meets_WindowsKeepFromOverlapping :
    reserved.AtMostOneMatch ∧ reserved.Matches 0 0x00FFFFFF 0 ∧ ∃ t, step reserved = .next t :=
  ⟨fun _ _ _ _ ⟨_, hv, _⟩ ⟨_, hw, _⟩ => (only_w0 reserved_others_free hv).trans (only_w0 reserved_others_free hw).symm,
    ⟨bootBody, rfl, .inl rfl, by decide, by decide, by decide⟩, _, rfl⟩

theorem reserved_only {p : PortId} {r : Reservation} (h : reserved.reservation p = some r) :
    p = 0 ∧ r = { granule := 0x000000040, window := 0 } := by
  have h0 : ∀ q : PortId, q ≠ 0 → reserved.reservation q = none := by decide
  by_cases hp : p = 0
  · subst hp; exact ⟨rfl, (Option.some.inj h).symm⟩
  · rw [h0 p hp] at h; cases h

theorem reserved_follows : reserved.LinksFollowWindows := by
  have hlink : ∀ v, v ≠ 0 → reserved.monitor.linkEpoch.get v = none := by decide +kernel
  refine ⟨fun w b hb => ?_, fun w e => ⟨fun h => ?_, fun ⟨b, hb, _, he⟩ => ?_⟩, fun p r hr => ?_⟩
  · obtain rfl := only_w0 reserved_others_free hb
    obtain rfl : bootBody = b := Option.some.inj hb
    trivial
  · by_cases hw : w = 0
    · subst hw; exact ⟨bootBody, rfl, rfl, Option.some.inj h⟩
    · rw [hlink w hw] at h; cases h
  · obtain rfl := only_w0 reserved_others_free hb
    obtain rfl : bootBody = b := Option.some.inj hb
    rw [← he]; rfl
  · obtain ⟨rfl, rfl⟩ := reserved_only hr
    exact ⟨bootBody, rfl, rfl⟩

/-- With I0's linked read of W0 on the bus. -/
theorem test_meets_ReservationsKeepToLiveWindows :
    let s := presenting reserved linkedRead []
    s.LinksFollowWindows ∧ s.LinkedReadHasRight ∧ s.ReservationsHaveRights ∧
      s.monitor.linkEpoch.get 0 = some linkedRead.epoch ∧ ∃ t, step s = .next t := by
  refine ⟨reserved_follows, fun r hr _ _ => ?_, fun p r hr => ?_, rfl, _, rfl⟩
  · cases hr; exact ⟨bootBody, rfl, by decide⟩
  · obtain ⟨rfl, rfl⟩ := reserved_only hr
    exact ⟨bootBody, rfl, by decide⟩

/-- I4, ACTIVE, has one entry in the store and one report to take. -/
theorem test_meets_OfflinePortsKeepEmpty :
    let s := (State.reset.modifyPort 4 fun u => { u with state := .active, occupancyCopy := 2 }).modifyEngine fun e =>
      { e with store := [entryK] }
    let s := { s with links := { s.links with reports := vput s.links.reports 4 1 } }
    s.PortsAccountForWork ∧ ∃ t, step s = .next t := by
  refine ⟨⟨?_, (fun _ h => nomatch h), by decide, by decide, by decide⟩, _, rfl⟩
  unfold State.OfflinePortsHoldNothing State.NoEntry; decide

theorem test_meets_PortZeroKeepsServing :
    reserved.PortZeroServes ∧ ∃ t, step reserved = .next t :=
  ⟨by unfold State.PortZeroServes; decide, _, rfl⟩

theorem test_meets_BusKeepsConsistent :
    (presenting State.reset (splitWrite 2) []).BusConsistent ∧
      (waitingWrite (presenting State.reset (splitWrite 2) [])).BusConsistent ∧ (masterHolds State.reset).BusConsistent ∧
      ∃ t, step (presenting State.reset (splitWrite 2) []) = .next t := by
  refine ⟨⟨⟨by decide, rfl, _, rfl, rfl, rfl, rfl⟩, ?_, List.nodup_nil, fun _ h => nomatch h⟩,
    ⟨⟨by decide, rfl, _, rfl, rfl, rfl, rfl⟩, ?_, List.nodup_singleton _, fun q hq => ?_⟩,
    ⟨⟨rfl, rfl, rfl, rfl⟩, (fun _ h => nomatch h), List.nodup_nil, fun _ h => nomatch h⟩, _, rfl⟩
  · rintro r h; cases h; exact ⟨nofun, fun _ _ => ⟨_, _, rfl⟩, nofun⟩
  · rintro r h; cases h; exact ⟨nofun, fun _ _ => ⟨_, _, rfl⟩, nofun⟩
  · obtain rfl : q = 1 := List.mem_singleton.mp hq
    exact ⟨_, _, rfl, rfl⟩

theorem test_meets_RecordsKeepLegal : reserved.RecordsLegal ∧ ∃ t, step reserved = .next t := by
  refine ⟨⟨fun w b hb => ?_, fun w b hb => ?_, fun w b hb => ?_⟩, _, rfl⟩ <;>
  · obtain rfl := only_w0 reserved_others_free hb
    obtain rfl : bootBody = b := Option.some.inj hb
    first
      | unfold Terms.IsValid; decide
      | decide

/-- A full lookaside, and a walk at the arbiter with another on the channel behind it. -/
theorem test_meets_UnitsKeepLegal :
    let s := ((unit0 fun u => { u with lookaside := full }).setWaitingWalk 0 (some (acc .read .one 0).toAccessHead)).setToTable
      0 [.walk (acc .read .one 1).toAccessHead]
    s.UnitsLegal ∧ ∃ t, step s = .next t := by
  refine ⟨⟨⟨by decide, by decide, by decide⟩, by unfold State.ParametersInRange; decide, fun p => ?_, fun p h rest hh => ?_⟩,
    _, rfl⟩
  · by_cases hp : p = 0
    · subst hp; exact full_kept
    · have : p = 1 ∨ p = 2 ∨ p = 3 ∨ p = 4 ∨ p = 5 := by revert p; decide
      rcases this with rfl | rfl | rfl | rfl | rfl <;> exact empty_kept
  · by_cases hp : p = 0
    · subst hp; exact fun h => nomatch h
    · have : p = 1 ∨ p = 2 ∨ p = 3 ∨ p = 4 ∨ p = 5 := by clear hh; revert p; decide
      rcases this with rfl | rfl | rfl | rfl | rfl <;> cases hh

theorem test_meets_LawsHoldAfterReset :
    ∃ t, exec (.deviceReset lowStraps) (presenting State.reset (splitWrite 2) []) = .next t := ⟨_, rfl⟩

end Sys2Proof.Tests
end

section
/-! The records of the window table: the law of R18 and the legality of every record, through all that a step can do to
them. `State.RecordsEvolve` says once what an event can make of the records; the laws follow from it. -/

namespace Sys2Proof.Machine

/-! ### Matching and the overlap check (R17, R18) -/

theorem WindowBody.matching_iff (b : WindowBody) : b.matching = true ↔ b.phase = .live ∨ b.phase = .held := by
  simp [WindowBody.matching]

theorem WindowRecord.matchesAccess_iff (s : State) (p : PortId) (a : LocalAddr) (w : WindowId) :
    (s.record w).matchesAccess p a = true ↔ s.Matches p a w := by
  unfold WindowRecord.matchesAccess State.Matches
  rcases (s.record w).body with _ | b
  · simp
  · simp [WindowBody.matching_iff, contains_iff, and_assoc]

/-- Two ranges, neither empty, share an address exactly when each begins before the other ends. -/
theorem Terms.meets_iff (t u : Terms) :
    t.meets u = true ↔ ∃ a : Nat, (t.localBase.toNat ≤ a ∧ a < t.localBase.toNat + 2 ^ t.sizeCode.val) ∧
      (u.localBase.toNat ≤ a ∧ a < u.localBase.toNat + 2 ^ u.sizeCode.val) := by
  have ht : 0 < 2 ^ t.sizeCode.val := Nat.two_pow_pos _
  have hu : 0 < 2 ^ u.sizeCode.val := Nat.two_pow_pos _
  have h : t.meets u = true ↔
      t.localBase.toNat < u.localBase.toNat + u.size ∧ u.localBase.toNat < t.localBase.toNat + t.size := by
    simp [Terms.meets]
  rw [h]
  unfold Terms.size
  constructor
  · intro h
    exact ⟨max t.localBase.toNat u.localBase.toNat, by omega, by omega⟩
  · rintro ⟨a, h1, h2⟩
    omega

theorem Rights.share_iff (r q : Rights) :
    Rights.share r q = true ↔ ∃ p, r.get p ≠ .noRight ∧ q.get p ≠ .noRight := by
  simp [Rights.share, mem_allPorts]

/-- The overlap check passes exactly when no other window overlaps (R18). -/
theorem State.overlapPasses_iff (s : State) (w : WindowId) (t : Terms) (r : Rights) :
    s.table.overlapPasses w t r = true ↔ ¬ s.Overlaps w t r := by
  have conflicts_iff : ∀ v, (s.table.records.get v).conflicts t r = true ↔ ∃ b, (s.record v).body = some b ∧
      (b.phase = .live ∨ b.phase = .held) ∧ t.meets b.terms = true ∧ Rights.share r b.rights = true := by
    intro v
    change (s.record v).conflicts t r = true ↔ _
    unfold WindowRecord.conflicts
    rcases (s.record v).body with _ | b
    · simp
    · simp [WindowBody.matching_iff, and_assoc]
  simp only [Table.overlapPasses, allWindows, List.all_eq_true, List.mem_finRange, true_implies, Bool.or_eq_true,
    beq_iff_eq, Bool.not_eq_true', ← Bool.not_eq_true, conflicts_iff, Terms.meets_iff, Rights.share_iff]
  unfold State.Overlaps
  constructor
  · rintro h ⟨v, b, hv, hb, hp, ha, hr⟩
    exact (h v).elim hv fun hn => hn ⟨b, hb, hp, ha, hr⟩
  · intro h v
    by_cases hv : v = w
    · exact .inl hv
    · exact .inr fun ⟨b, hb, hp, ha, hr⟩ => h ⟨v, b, hv, hb, hp, ha, hr⟩

/-! ### Legal records (R1, R2, R12, R15, R80) -/

theorem Terms.valid_iff (t : Terms) : t.valid = true ↔ t.IsValid := by
  have h : t.valid = true ↔ 12 ≤ t.sizeCode.val ∧ t.localBase.toNat % t.size = 0 ∧
      t.localBase.toNat + t.size ≤ Config.apertureBase ∧ t.targetBase.toNat % t.size = 0 ∧
      t.targetBase.toNat + t.size ≤ 2 ^ 36 ∧ (t.linkable = true → t.width = .w32) := by
    rcases hl : t.linkable <;> simp [Terms.valid, hl, and_assoc]
  rw [h]
  simp only [Terms.IsValid, Nat.dvd_iff_mod_eq_zero]
  rfl

/-- The fields that a request carries are valid (R2, R55). -/
theorem Captured.fieldSet_valid {c : Captured} {t : Terms} {r : Rights} (h : c.fieldSet = some (t, r)) : t.IsValid := by
  unfold Captured.fieldSet at h
  split at h
  · split at h
    · rename_i t' r' _ _ hv
      obtain ⟨rfl, rfl⟩ : t' = t ∧ r' = r := by simpa using h
      exact t'.valid_iff.1 hv
    · cases h
  · cases h

/-- A body's outstanding set is in order and has a set generation exactly while it is not empty (R15, R80). -/
def WindowBody.SetHasGeneration (b : WindowBody) : Prop :=
  b.shootSet.Sublist [0, 1, 2, 3, 4, 5] ∧ (b.setGeneration = none ↔ b.shootSet = [])

theorem WindowBody.removeOutstanding_set {b : WindowBody} (h : b.SetHasGeneration) (p : PortId) :
    (b.removeOutstanding p).SetHasGeneration := by
  refine ⟨List.filter_sublist.trans h.1, ?_⟩
  by_cases he : removePort p b.shootSet = []
  · simp [WindowBody.removeOutstanding, he]
  · have : b.shootSet ≠ [] := by rintro h0; simp [h0, removePort] at he
    simp [WindowBody.removeOutstanding, he, h.2, this]

/-! ### What an event can make of the records -/

/-- What the body b of window w may become in one change: a window that matches afterwards overlaps no other, or matched
no less before; its fields are kept or valid; no count rises above its bound; and its set keeps its generation. -/
structure State.MayBecome (s : State) (w : WindowId) (b b' : WindowBody) : Prop where
  fits : b'.matching = true → ¬ s.Overlaps w b'.terms b'.rights ∨
    (b.matching = true ∧ b'.terms = b.terms ∧ ∀ p, b'.rights.get p ≠ .noRight → b.rights.get p ≠ .noRight)
  fields : b'.terms = b.terms ∨ b'.terms.IsValid
  counts : ∀ e, b'.counts.get e ≤ max 23 (b.counts.get e)
  set : b.SetHasGeneration → b'.SetHasGeneration

/-- A change that leaves the state of the window, its fields, its rights and its counts. -/
theorem State.MayBecome.of_same (s : State) (w : WindowId) {b b' : WindowBody} (hp : b'.phase = b.phase)
    (ht : b'.terms = b.terms) (hr : b'.rights = b.rights) (hc : ∀ e, b'.counts.get e ≤ max 23 (b.counts.get e))
    (hs : b.SetHasGeneration → b'.SetHasGeneration) : s.MayBecome w b b' where
  fits h := .inr ⟨by simpa [WindowBody.matching, hp] using h, ht, fun p => by rw [hr]; exact id⟩
  fields := .inl ht
  counts := hc
  set := hs

/-- One change of the record of window w: it is freed, defined afresh (R54), or its body changed. -/
inductive State.RecordChange (s : State) (w : WindowId) : Option WindowBody → Prop
  | freed : s.RecordChange w none
  | defined {t : Terms} (r : Rights) : t.IsValid → s.RecordChange w (some (definedBody t r))
  | changed {b b' : WindowBody} : (s.record w).body = some b → s.MayBecome w b b' → s.RecordChange w (some b')

/-- The records of t are those of s after changes of single records, or those of a device reset (R24). -/
inductive State.RecordsEvolve (s : State) : State → Prop
  | same {t : State} : t.table.records = s.table.records → s.RecordsEvolve t
  | change {t u : State} {w : WindowId} {r : WindowRecord} : s.RecordsEvolve t → t.RecordChange w r.body →
      u.table.records = vput t.table.records w r → s.RecordsEvolve u
  | reset {t : State} (st : Straps) : t.table.records = resetRecords st → s.RecordsEvolve t

theorem State.RecordsEvolve.congr {s t u : State} (h : s.RecordsEvolve t) (hu : u.table.records = t.table.records) :
    s.RecordsEvolve u := by
  cases h with
  | same e => exact .same (hu.trans e)
  | change h c e => exact .change h c (hu.trans e)
  | reset st e => exact .reset st (hu.trans e)

theorem State.RecordsEvolve.trans {s t u : State} (h : s.RecordsEvolve t) (k : t.RecordsEvolve u) :
    s.RecordsEvolve u := by
  induction k with
  | same e => exact h.congr e
  | change _ c e ih => exact .change ih c e
  | reset st e => exact .reset st e

theorem State.record_congr {s t : State} (h : t.table.records = s.table.records) (w : WindowId) :
    t.record w = s.record w := by
  simp [State.record, h]

theorem State.record_of_vput {s t : State} {w : WindowId} {r : WindowRecord}
    (h : t.table.records = vput s.table.records w r) (v : WindowId) :
    t.record v = if v = w then r else s.record v := by
  simp [State.record, h]

/-- After a device reset only W0, the boot window, is not FREE (R24). -/
theorem State.record_of_reset {t : State} {st : Straps} (h : t.table.records = resetRecords st) (w : WindowId) :
    t.record w = if w = 0 then bootRecord st else { generation := 0, body := none } := by
  simp [State.record, h, resetRecords]

theorem State.body_of_reset {t : State} {st : Straps} (h : t.table.records = resetRecords st) {w : WindowId}
    {b : WindowBody} (hb : (t.record w).body = some b) : w = 0 ∧ (bootRecord st).body = some b := by
  rw [State.record_of_reset h] at hb
  by_cases hw : w = 0
  · exact ⟨hw, by simpa [hw] using hb⟩
  · simp [hw] at hb

/-! ### The law of R18 -/

/-- The window that changed matches at an address no other window matches at. -/
theorem State.RecordChange.match_alone {s t : State} {w v : WindowId} {r : WindowRecord} (hs : s.AtMostOneMatch)
    (hc : s.RecordChange w r.body) (ht : t.table.records = vput s.table.records w r) {p : PortId} {a : LocalAddr}
    (hw : t.Matches p a w) (hv : s.Matches p a v) : v = w := by
  obtain ⟨b', hb', hp', hr', ha'⟩ := hw
  rw [State.record_of_vput ht, if_pos rfl] at hb'
  rw [hb'] at hc
  cases hc with
  | defined r _ => rcases hp' with h | h <;> cases h
  | changed hb hm =>
    rcases hm.fits (b'.matching_iff.2 hp') with hno | ⟨hbm, hterms, hrights⟩
    · by_contra hvw
      obtain ⟨bv, hbv, hpv, hrv, hav⟩ := hv
      exact hno ⟨v, bv, hvw, hbv, hpv, ⟨a.toNat, ha', hav⟩, p, hr', hrv⟩
    · exact hs p a v w hv ⟨_, hb, (WindowBody.matching_iff _).1 hbm, hrights p hr', hterms ▸ ha'⟩

theorem State.RecordsEvolve.atMostOneMatch {s t : State} (h : s.RecordsEvolve t) (hs : s.AtMostOneMatch) :
    t.AtMostOneMatch := by
  induction h with
  | same e => simpa [State.AtMostOneMatch, State.Matches, State.record_congr e] using hs
  | @change t u w r _ hc e ih =>
    have elsewhere : ∀ p a v, v ≠ w → u.Matches p a v → t.Matches p a v := by
      intro p a v hv h
      unfold State.Matches at *
      rwa [State.record_of_vput e, if_neg hv] at h
    intro p a v v' hv hv'
    by_cases h1 : v = w <;> by_cases h2 : v' = w
    · rw [h1, h2]
    · subst h1; exact (hc.match_alone ih e hv (elsewhere p a v' h2 hv')).symm
    · subst h2; exact hc.match_alone ih e hv' (elsewhere p a v h1 hv)
    · exact ih p a v v' (elsewhere p a v h1 hv) (elsewhere p a v' h2 hv')
  | reset st e =>
    rintro p a v w ⟨b, hb, -⟩ ⟨c, hc, -⟩
    rw [(State.body_of_reset e hb).1, (State.body_of_reset e hc).1]

/-! ### The legality of every record -/

/-- A body holds legal values. -/
structure WindowBody.Legal (b : WindowBody) : Prop where
  fields : b.terms.IsValid
  set : b.SetHasGeneration
  counts : ∀ e, b.counts.get e ≤ 23

theorem State.recordsLegal_iff (s : State) : s.RecordsLegal ↔ ∀ w b, (s.record w).body = some b → b.Legal :=
  ⟨fun ⟨hf, hs, hc⟩ w b hb => ⟨hf w b hb, hs w b hb, hc w b hb⟩,
    fun h => ⟨fun w b hb => (h w b hb).fields, fun w b hb => (h w b hb).set, fun w b hb => (h w b hb).counts⟩⟩

theorem State.MayBecome.legal {s : State} {w : WindowId} {b b' : WindowBody} (h : s.MayBecome w b b') (hb : b.Legal) :
    b'.Legal where
  fields := h.fields.elim (fun e => e ▸ hb.fields) id
  set := h.set hb.set
  counts e := (h.counts e).trans (max_le le_rfl (hb.counts e))

theorem definedBody_legal {t : Terms} (r : Rights) (h : t.IsValid) : (definedBody t r).Legal where
  fields := h
  set := ⟨List.nil_sublist _, by simp [definedBody]⟩
  counts e := by simp [definedBody]

theorem bootRecord_legal {st : Straps} {b : WindowBody} (h : (bootRecord st).body = some b) : b.Legal := by
  cases h
  refine ⟨(Terms.valid_iff _).1 ?_, ⟨List.nil_sublist _, by simp⟩, fun e => by simp⟩
  rcases h : st.btop <;> simp [bootTerms, Terms.valid, Terms.size, Config.apertureBase, h]

theorem State.RecordsEvolve.recordsLegal {s t : State} (h : s.RecordsEvolve t) (hs : s.RecordsLegal) :
    t.RecordsLegal := by
  rw [State.recordsLegal_iff] at *
  induction h with
  | same e => simpa [State.record_congr e] using hs
  | change _ hc e ih =>
    intro v b hb
    rw [State.record_of_vput e] at hb
    split at hb
    · rw [hb] at hc
      cases hc with
      | defined r hv => exact definedBody_legal r hv
      | changed hold hm => exact hm.legal (ih _ _ hold)
    · exact ih v b hb
  | reset st e => exact fun w b hb => bootRecord_legal (State.body_of_reset e hb).2

end Sys2Proof.Machine
end

section
/-! What the port units, the arbiters and the configuration unit hold: lookasides, rotation orders, parameters and the
walks at the request arbiter (R22, R32, R76, R94, R191). `State.Follows` joins this with `State.RecordsEvolve`, so that
each operation of the part is looked at once. -/

namespace Sys2Proof.Machine

/-! ### Lookasides (R32 to R36) -/

theorem emptyLookaside_wellKept : emptyLookaside.WellKept :=
  ⟨List.nodup_nil, by simp [emptyLookaside], by simp [emptyLookaside]⟩

theorem Lookaside.hit_entry {l : Lookaside} {a : LocalAddr} {i : Fin 4} {c : Copy} (h : l.hit a = some (i, c)) :
    l.entries.get i = some c := by
  unfold Lookaside.hit at h
  split at h
  · cases h
  · obtain ⟨d, hd, he⟩ := Option.map_eq_some_iff.1 h
    cases he
    exact hd

theorem Lookaside.holds_iff (l : Lookaside) (w : WindowId) (i : Fin 4) :
    l.holds w i = true ↔ ∃ c, l.entries.get i = some c ∧ c.window = w := by
  unfold Lookaside.holds
  rcases l.entries.get i with _ | c <;> simp

/-- A valid entry made the most recently used (R33). -/
theorem Lookaside.WellKept.touch {l : Lookaside} (h : l.WellKept) {i : Fin 4} (hi : l.entries.get i ≠ none) :
    (l.touch i).WellKept := by
  obtain ⟨hn, hm, hw⟩ := h
  refine ⟨List.nodup_cons.2 ⟨by simp, hn.filter _⟩, fun j => ?_, hw⟩
  change j ∈ i :: l.order.filter (fun j => j != i) ↔ l.entries.get j ≠ none
  by_cases hj : j = i
  · simp [hj, hi]
  · simp [hj, hm]

/-- The entry that holds a window already is the place for its new copy (R35). -/
theorem Lookaside.WellKept.placeFor_held {l : Lookaside} (h : l.WellKept) {j : Fin 4} {d : Copy}
    (hj : l.entries.get j = some d) : l.placeFor d.window = j := by
  have holds : l.holds d.window j = true := (l.holds_iff _ _).2 ⟨d, hj, rfl⟩
  have all : ∀ j : Fin 4, j ∈ entryNumbers := by decide
  obtain ⟨i, hi⟩ := Option.isSome_iff_exists.1 (List.find?_isSome.2 ⟨j, all j, holds⟩)
  obtain ⟨c, hc, hcw⟩ := (l.holds_iff _ _).1 (List.find?_some hi)
  simp only [Lookaside.placeFor, hi]
  exact h.2.2 i j c d hc hj hcw

/-- A copy installed (R35). -/
theorem Lookaside.WellKept.install {l : Lookaside} (h : l.WellKept) (c : Copy) : (l.install c).WellKept := by
  obtain ⟨hn, hm, hw⟩ := h
  have place : ∀ j d, l.entries.get j = some d → d.window = c.window → j = l.placeFor c.window :=
    fun j d hj hd => hd ▸ (Lookaside.WellKept.placeFor_held ⟨hn, hm, hw⟩ hj).symm
  refine ⟨List.nodup_cons.2 ⟨by simp, hn.filter _⟩, fun j => ?_, fun j k d e hd he hde => ?_⟩
  · change j ∈ l.placeFor c.window :: l.order.filter (fun j => j != l.placeFor c.window) ↔
      (vput l.entries (l.placeFor c.window) (some c)).get j ≠ none
    by_cases hj : j = l.placeFor c.window <;> simp [hj, hm]
  · change (vput l.entries (l.placeFor c.window) (some c)).get j = some d at hd
    change (vput l.entries (l.placeFor c.window) (some c)).get k = some e at he
    rw [vput_get] at hd he
    split_ifs at hd he with hj hk hk
    · rw [hj, hk]
    · cases hd
      exact hj.trans (place k e he hde.symm).symm
    · cases he
      exact (place j d hd hde).trans hk.symm
    · exact hw j k d e hd he hde

/-- A window's entry made invalid (R36). -/
theorem Lookaside.WellKept.invalidate {l : Lookaside} (h : l.WellKept) (w : WindowId) : (l.invalidate w).WellKept := by
  obtain ⟨hn, hm, hw⟩ := h
  have entry : ∀ i c, (l.invalidate w).entries.get i = some c ↔ l.entries.get i = some c ∧ c.window ≠ w := by
    intro i c
    simp [Lookaside.invalidate, Option.filter_eq_some_iff]
  refine ⟨hn.filter _, fun i => ?_, fun i j c d hc hd => hw i j c d ((entry i c).1 hc).1 ((entry j d).1 hd).1⟩
  have holds := l.holds_iff w i
  rcases he : l.entries.get i with _ | c
  · simp [Lookaside.invalidate, he, hm]
  · by_cases hcw : c.window = w <;> simp_all [Lookaside.invalidate, Option.filter]

/-! ### Rotation orders (R22, R99) -/

theorem moveToEnd_perm {order : List PortId} (h : order.Perm [0, 1, 2, 3, 4, 5]) (p : PortId) :
    (moveToEnd p order).Perm [0, 1, 2, 3, 4, 5] := by
  have base : ∀ p, (moveToEnd p [0, 1, 2, 3, 4, 5]).Perm [0, 1, 2, 3, 4, 5] := by decide
  exact ((h.filter _).append_right [p]).trans (base p)

/-! ### Walks at the request arbiter (R46, R76) -/

theorem State.settleWalk_reaches (s : State) (p : PortId) {h : AccessHead} {rest : List PortMessage}
    (ht : (s.settleWalk p).toTable p = .walk h :: rest) : (s.settleWalk p).waitingWalk p ≠ none := by
  unfold State.settleWalk at *
  split at ht
  · simp
  · rename_i hno
    intro hw
    exact hno h rest ht hw

theorem State.WalksReachArbiter.settleWalk {s t : State} {p : PortId} (h : s.WalksReachArbiter)
    (elsewhere : ∀ q, q ≠ p → t.toTable q = s.toTable q ∧ t.waitingWalk q = s.waitingWalk q) :
    (t.settleWalk p).WalksReachArbiter := by
  intro q head rest hq
  by_cases hqp : q = p
  · subst hqp
    exact t.settleWalk_reaches q hq
  · obtain ⟨ht, hw⟩ := t.settleWalk_elsewhere hqp
    obtain ⟨et, ew⟩ := elsewhere q hqp
    rw [hw, ew]
    exact h q head rest (et.symm.trans (ht.symm.trans hq))

theorem State.WalksReachArbiter.congr {s t : State} (h : s.WalksReachArbiter)
    (ht : t.links.toTable = s.links.toTable) (hw : t.table.walks = s.table.walks) : t.WalksReachArbiter := by
  unfold State.WalksReachArbiter State.toTable State.waitingWalk at *
  rw [ht, hw]
  exact h

/-! ### What every operation keeps -/

/-- The state t comes from s by operations of the part: its records evolve, and the unit laws are kept. -/
structure State.Follows (s t : State) : Prop where
  records : s.RecordsEvolve t
  units : s.UnitsLegal → t.UnitsLegal

theorem State.Follows.refl (s : State) : s.Follows s := ⟨.same rfl, id⟩

theorem State.Follows.trans {s t u : State} (h : s.Follows t) (k : t.Follows u) : s.Follows u :=
  ⟨h.records.trans k.records, k.units ∘ h.units⟩

/-- The parts of the units that the laws speak of, the channels and the walks apart. -/
structure State.SameUnits (s t : State) : Prop where
  walkOrder : t.table.walkOrder = s.table.walkOrder
  requestOrder : t.table.requestOrder = s.table.requestOrder
  rotation : t.engine.rotation = s.engine.rotation
  config : t.config = s.config
  lookaside : ∀ p, (t.port p).lookaside = (s.port p).lookaside

theorem State.SameUnits.unitsLegal {s t : State} (h : s.SameUnits t)
    (walks : s.WalksReachArbiter → t.WalksReachArbiter) : s.UnitsLegal → t.UnitsLegal := by
  rintro ⟨⟨h1, h2, h3⟩, h4, h5, h6⟩
  refine ⟨⟨h.walkOrder ▸ h1, h.requestOrder ▸ h2, h.rotation ▸ h3⟩, ?_, fun p => h.lookaside p ▸ h5 p, walks h6⟩
  unfold State.ParametersInRange at *
  rwa [h.config]

/-- An operation that leaves the channels to the table and the walks that wait. -/
theorem State.Follows.of_same {s t : State} (hr : s.RecordsEvolve t) (h : s.SameUnits t)
    (ht : t.links.toTable = s.links.toTable) (hw : t.table.walks = s.table.walks) : s.Follows t :=
  ⟨hr, h.unitsLegal fun k => k.congr ht hw⟩

/-- An operation that leaves the ports and the table, the channels to the table, the rotation order and the
parameters. -/
theorem State.Follows.of_frame {s t : State} (hp : t.ports = s.ports) (hl : t.links.toTable = s.links.toTable)
    (ht : t.table = s.table) (hr : t.engine.rotation = s.engine.rotation) (hc : t.config = s.config) : s.Follows t :=
  .of_same (.same (by rw [ht])) ⟨by rw [ht], by rw [ht], hr, hc, fun p => by simp [State.port, hp]⟩ hl (by rw [ht])

theorem State.modifyPort_follows (s : State) (p : PortId) (f : PortUnit → PortUnit)
    (h : (s.port p).lookaside.WellKept → (f (s.port p)).lookaside.WellKept) : s.Follows (s.modifyPort p f) := by
  refine ⟨.same rfl, fun ⟨h1, h2, h3, h4⟩ => ⟨h1, h2, fun q => ?_, h4⟩⟩
  by_cases hq : q = p
  · subst hq
    simpa using h (h3 q)
  · simpa [hq] using h3 q

theorem State.modifyEngine_follows (s : State) (f : Engine → Engine)
    (h : s.engine.rotation.Perm [0, 1, 2, 3, 4, 5] → (f s.engine).rotation.Perm [0, 1, 2, 3, 4, 5]) :
    s.Follows (s.modifyEngine f) :=
  ⟨.same rfl, fun ⟨⟨h1, h2, h3⟩, h4, h5, h6⟩ => ⟨⟨h1, h2, h h3⟩, h4, h5, h6⟩⟩

theorem State.setConfig_follows (s : State) (c : ConfigUnit)
    (h : s.ParametersInRange → ({ s with config := c } : State).ParametersInRange) :
    s.Follows { s with config := c } :=
  ⟨.same rfl, fun ⟨h1, h2, h3, h4⟩ => ⟨h1, h h2, h3, h4⟩⟩

/-- A walk's settling, after the channel or the waiting walk of its port changed (R46, R76). -/
theorem State.settleWalk_follows {s t : State} {p : PortId} (hr : s.RecordsEvolve t) (h : s.SameUnits t)
    (elsewhere : ∀ q, q ≠ p → t.toTable q = s.toTable q ∧ t.waitingWalk q = s.waitingWalk q) :
    s.Follows (t.settleWalk p) := by
  obtain ⟨h1, h2, h3, h4, h5⟩ := h
  refine ⟨hr.congr (by simp), State.SameUnits.unitsLegal ⟨?_, ?_, ?_, ?_, fun q => ?_⟩ fun k => k.settleWalk elsewhere⟩
  all_goals simp_all [State.port]

theorem State.takeFromPort_follows (s : State) (p : PortId) (l : List PortMessage) : s.Follows (s.takeFromPort p l) :=
  State.settleWalk_follows (.same rfl) ⟨rfl, rfl, rfl, rfl, fun _ => rfl⟩ fun q hq => by simp [hq]

theorem State.sendToTable_follows (s : State) (p : PortId) (m : PortMessage) : s.Follows (s.sendToTable p m) :=
  s.takeFromPort_follows p (s.toTable p ++ [m])

theorem State.setToPort_follows (s : State) (p : PortId) (l : List TableMessage) : s.Follows (s.setToPort p l) :=
  .of_frame rfl rfl rfl rfl rfl

theorem State.sendToPort_follows (s : State) (p : PortId) (m : TableMessage) : s.Follows (s.sendToPort p m) :=
  .of_frame rfl rfl rfl rfl rfl

theorem State.sendToPorts_follows (s : State) (ps : List PortId) (m : TableMessage) : s.Follows (s.sendToPorts ps m) :=
  .of_frame (by simp) (by simp) (by simp) (by simp) (by simp)

theorem State.setRequest_follows (s : State) (p : PortId) (c : Option Captured) : s.Follows (s.setRequest p c) :=
  .of_frame rfl rfl rfl rfl rfl

theorem State.setReservation_follows (s : State) (p : PortId) (r : Option Reservation) :
    s.Follows (s.setReservation p r) :=
  .of_frame rfl rfl rfl rfl rfl

theorem State.setPermission_follows (s : State) (p : PortId) (b : Bool) : s.Follows (s.setPermission p b) :=
  .of_frame rfl rfl rfl rfl rfl

theorem State.setLinkEpoch_follows (s : State) (w : WindowId) (e : Option Epoch) : s.Follows (s.setLinkEpoch w e) :=
  .of_frame rfl rfl rfl rfl rfl

theorem State.keepReservations_follows (s : State) (keep : Reservation → Bool) : s.Follows (s.keepReservations keep) :=
  .of_frame rfl rfl rfl rfl rfl

theorem State.breakAndLink_follows (s : State) (w : WindowId) (e : Option Epoch) : s.Follows (s.breakAndLink w e) :=
  .of_frame rfl rfl rfl rfl rfl

theorem State.engineSubtract_follows (s : State) (w : WindowId) (e : Epoch) : s.Follows (s.engineSubtract w e) :=
  .of_frame rfl rfl rfl rfl rfl

/-! ### Slots and faults -/

theorem State.postResult_follows (s : State) (p : PortId) (n : RequestNumber) (r : Result) :
    s.Follows (s.postResult p n r) :=
  .of_same (.same (by simp)) ⟨by simp, by simp, by simp, by simp, by simp⟩ (by simp) (by simp)

theorem State.requestTaken_follows (s : State) (p : PortId) : s.Follows (s.requestTaken p) :=
  (s.modifyPort_follows p _ id).trans (State.setRequest_follows _ _ _)

theorem State.clearSlot_follows (s : State) (p : PortId) : s.Follows (s.clearSlot p) := by
  unfold State.clearSlot
  exact s.modifyPort_follows p _ id

theorem PortUnit.offered_lookaside (u : PortUnit) (f : FaultInfo) : (u.offered f).lookaside = u.lookaside := by
  unfold PortUnit.offered; split_ifs <;> rfl

theorem State.offerFault_follows (s : State) (p : PortId) (f : FaultInfo) : s.Follows (s.offerFault p f) :=
  s.modifyPort_follows p _ fun h => by rwa [PortUnit.offerFault_eq, PortUnit.offered_lookaside]

theorem State.offerDeviceFault_follows (s : State) (f : FaultInfo) (p : PortId) :
    s.Follows (s.offerDeviceFault f p) := by
  unfold State.offerDeviceFault
  split <;> exact s.setConfig_follows _ id

theorem State.routeDeferred_follows (s : State) (e : StoreEntry) (f : FaultInfo) : s.Follows (s.routeDeferred e f) := by
  unfold State.routeDeferred
  split
  · exact s.offerFault_follows _ f
  · exact s.offerDeviceFault_follows f _

/-! ### Port units -/

theorem State.postOffline_follows (s : State) (p : PortId) : s.Follows (s.postOffline p) := by
  have h := s.modifyPort_follows p (fun u => { u with offlineRequester := none }) id
  unfold State.postOffline
  dsimp only
  split
  · exact h
  · exact h.trans (State.postResult_follows _ _ _ _)

theorem State.enterOffline_follows (s : State) (p : PortId) : s.Follows (s.enterOffline p) :=
  (((s.modifyPort_follows p _ fun _ => emptyLookaside_wellKept).trans (State.sendToTable_follows _ _ _)).trans
    (State.clearSlot_follows _ p)).trans (State.postOffline_follows _ p)

theorem State.evaluateQuiesce_follows (s : State) (p : PortId) : s.Follows (s.evaluateQuiesce p) := by
  unfold State.evaluateQuiesce
  split
  · exact s.enterOffline_follows p
  · exact .refl s

theorem State.endCurrent_follows (s : State) (p : PortId) (a : Answer) (f : Option FaultInfo) :
    s.Follows (s.endCurrent p a f) := by
  rw [State.endCurrent_eq]
  refine (s.modifyPort_follows p _ fun h => ?_).trans (State.evaluateQuiesce_follows _ p)
  cases f
  · exact h
  · simpa [PortUnit.answeredWith, PortUnit.offered_lookaside, PortUnit.answered] using h

theorem State.failMatch_follows (s : State) (p : PortId) (h : AccessHead) (k : FaultKind) (w : Option WindowId) :
    s.Follows (s.failMatch p h k w) :=
  s.endCurrent_follows p _ _

theorem State.setCurrent_follows (s : State) (p : PortId) (c : CurrentAccess) : s.Follows (s.setCurrent p c) :=
  s.modifyPort_follows p _ id

theorem State.answer_follows (s : State) (p : PortId) (a : Answer) : s.Follows (s.answer p a) :=
  s.modifyPort_follows p _ id

theorem State.modifySlot_follows (s : State) (p : PortId) (f : Slot → Slot) : s.Follows (s.modifySlot p f) :=
  s.modifyPort_follows p _ id

theorem State.startWalk_follows (s : State) (p : PortId) (a : Access) : s.Follows (s.startWalk p a) := by
  unfold State.startWalk
  split
  · exact s.setCurrent_follows p _
  · exact (s.setCurrent_follows p _).trans (State.sendToTable_follows _ _ _)

theorem State.discardAnswer_follows (s : State) (p : PortId) : s.Follows (s.discardAnswer p) := by
  have h : s.Follows (s.setStaleWalk p false) := s.modifyPort_follows p _ id
  unfold State.discardAnswer
  dsimp only
  split
  · exact (h.trans (State.setCurrent_follows _ p _)).trans (State.sendToTable_follows _ _ _)
  · exact h

theorem State.dropForLinkedRead_follows (s : State) (p : PortId) (h : AccessHead) :
    s.Follows (s.dropForLinkedRead p h) := by
  unfold State.dropForLinkedRead
  split
  · exact s.setReservation_follows p none
  · exact .refl s

/-! ### The engine -/

theorem State.presentPart_follows (s : State) : s.Follows s.presentPart := s.modifyEngine_follows _ id

theorem State.startPart_follows (s : State) : s.Follows s.startPart :=
  (s.modifyEngine_follows _ id).trans (State.presentPart_follows _)

theorem State.seizeBus_follows (s : State) (p : PortId) (r : BusAccess) : s.Follows (s.seizeBus p r) :=
  s.modifyEngine_follows _ fun h => moveToEnd_perm h p

theorem State.finishAccess_follows (s : State) (r : BusAccess) (a : Answer) (f : Option FaultInfo) :
    s.Follows (s.finishAccess r a f) :=
  ((s.endCurrent_follows r.origin a f).trans (State.engineSubtract_follows _ _ _)).trans
    (State.modifyEngine_follows _ _ id)

theorem State.examine_follows (s : State) (r : BusAccess) (start : State → State)
    (h : ∀ t : State, t.Follows (start t)) : s.Follows (s.examine r start).state := by
  rcases s.examine_cases r start with ⟨-, -, e⟩ | ⟨-, -, e⟩ | ⟨-, e⟩ <;> rw [e]
  · exact (s.setReservation_follows r.origin none).trans (h _)
  · exact s.finishAccess_follows r _ none
  · exact h s

theorem State.grant_follows (s : State) (p : PortId) : s.Follows (s.grant p).state := by
  unfold State.grant
  split
  · exact (s.seizeBus_follows p _).trans (State.examine_follows _ _ _ State.presentPart_follows)
  · split
    · exact (s.seizeBus_follows p _).trans (State.examine_follows _ _ _ State.startPart_follows)
    · exact ((s.seizeBus_follows p _).trans (State.setCurrent_follows _ p _)).trans
        (State.examine_follows _ _ _ State.startPart_follows)
    · exact .refl s

theorem State.choose_follows (s : State) : s.Follows s.choose :=
  State.choose_induction (P := fun t => s.Follows t)
    (fun t h => h.trans (t.modifyEngine_follows _ id))
    (fun t p _ h => h.trans (t.grant_follows p)) s (.refl s)

theorem State.accept_follows (s : State) (p : PortId) (a : Access) (adm : Admission) :
    s.Follows (s.accept p a adm) := by
  rw [State.accept_eq]
  exact (s.modifyEngine_follows _ id).trans (State.modifyPort_follows _ p _ id)

theorem State.admitWaiter_follows (s : State) : s.Follows s.admitWaiter := by
  unfold State.admitWaiter
  split
  · exact .refl s
  · split
    · exact .refl s
    · exact (s.modifyEngine_follows _ id).trans (State.accept_follows _ _ _ _)

theorem State.offer_follows (s : State) (p : PortId) (a : Access) (adm : Admission) : s.Follows (s.offer p a adm) := by
  unfold State.offer
  split
  · split
    · exact (s.accept_follows p a adm).trans (State.choose_follows _)
    · exact (s.setCurrent_follows p _).trans (State.modifyEngine_follows _ _ id)
  · exact (s.setCurrent_follows p _).trans (State.choose_follows _)

theorem State.finishEntry_follows (s : State) (r : BusAccess) : s.Follows (s.finishEntry r) := by
  have finished := ((s.modifyEngine_follows
    (fun g => ({ g with store := removeOldest r.origin g.store } : Engine).dropAccess) id).trans
    (State.choose_follows _)).trans (State.engineSubtract_follows _ r.window r.epoch)
  have report : ∀ (t : State) (reports : Vector Nat 6),
      t.Follows { t with links := { t.links with reports := reports } } :=
    fun t reports => .of_frame rfl rfl rfl rfl rfl
  exact ((finished.trans (report _ _)).trans (State.admitWaiter_follows _)).trans (State.choose_follows _)

theorem State.endAbandoned_follows (s : State) (r : BusAccess) : s.Follows (s.endAbandoned r) :=
  ((s.engineSubtract_follows _ _).trans (State.modifyEngine_follows _ _ id)).trans (State.choose_follows _)

theorem State.failAccess_follows (s : State) (r : BusAccess) (k : FaultKind) : s.Follows (s.failAccess r k) := by
  unfold State.failAccess
  split
  · split
    · exact s.finishEntry_follows r
    · exact (s.routeDeferred_follows _ _).trans (State.finishEntry_follows _ r)
  · split <;> exact (s.finishAccess_follows r _ _).trans (State.choose_follows _)

theorem State.reportLinkedRead_follows (s : State) (p : PortId) (a : SysAddr) (w : WindowId) (e : Epoch) :
    s.Follows (s.reportLinkedRead p a w e) :=
  .of_frame (by simp) (by simp) (by simp) (by simp) (by simp)

theorem State.completeAccess_follows (s : State) (r : BusAccess) : s.Follows (s.completeAccess r) := by
  unfold State.completeAccess
  split
  · exact s.finishEntry_follows r
  · split
    · exact (s.finishAccess_follows r _ _).trans (State.choose_follows _)
    · dsimp only
      split
      · exact ((s.reportLinkedRead_follows _ _ _ _).trans (State.finishAccess_follows _ r _ _)).trans
          (State.choose_follows _)
      · exact (s.finishAccess_follows r _ _).trans (State.choose_follows _)

theorem State.reportPart_follows (s : State) (part : BusPart) : s.Follows (s.reportPart part) :=
  .of_frame (by simp) (by simp) (by simp) (by simp) (by simp)

theorem State.keepAccess_follows (s : State) (r : BusAccess) : s.Follows (s.keepAccess r) :=
  s.modifyEngine_follows _ id

end Sys2Proof.Machine
end

section
/-! Every command, and a tick of the timebase, keeps the laws of the records and of the units: one lemma for each shared
operation and for each command of the table, then the case split over the commands. -/

namespace Sys2Proof.Machine

/-! ### Changes of one record -/

theorem State.setRecord_follows (s : State) (w : WindowId) (r : WindowRecord) (h : s.RecordChange w r.body) :
    s.Follows (s.setRecord w r) :=
  .of_same (.change (.same rfl) h rfl) ⟨rfl, rfl, rfl, rfl, fun _ => rfl⟩ rfl rfl

theorem State.setBody_follows (s : State) (w : WindowId) (b : Option WindowBody) (h : s.RecordChange w b) :
    s.Follows (s.setBody w b) :=
  s.setRecord_follows w _ h

theorem State.changeWindow_follows (s : State) (w : WindowId) (b : Option WindowBody) (h : s.RecordChange w b) :
    s.Follows (s.changeWindow w b) :=
  s.setRecord_follows w _ h

/-- A count changed, and not raised above its bound (R10 to R12). -/
theorem State.modifyCount_follows (s : State) (w : WindowId) (e : Epoch) (f : Nat → Nat)
    (h : f ((s.record w).count e) ≤ max 23 ((s.record w).count e)) : s.Follows (s.modifyCount w e f) := by
  rcases hb : (s.record w).body with _ | b
  · exact s.setBody_follows w _ (by rw [hb]; exact .freed)
  · rw [State.modifyCount_eq hb]
    refine s.setBody_follows w _ (.changed hb (.of_same s w rfl rfl rfl (fun e' => ?_) id))
    simp only [WindowRecord.count, hb] at h
    simp only [WindowBody.withCount, vput_get]
    split
    · rename_i he
      exact he ▸ h
    · exact le_max_right _ _

/-- A pending operation changes nothing of its body that the laws of the records speak of. -/
theorem State.RecordChange.pendingOp {s : State} {w : WindowId} {b : WindowBody} (h : (s.record w).body = some b)
    (op : Option PendingOp) : s.RecordChange w (some { b with pendingOp := op }) :=
  .changed h (.of_same s w rfl rfl rfl (fun _ => le_max_right _ _) id)

theorem State.RecordChange.evaluated {s : State} {w : WindowId} {b : WindowBody} (h : (s.record w).body = some b)
    (g : Generation) : s.RecordChange w (evaluatedRecord g b).body := by
  have same : s.RecordChange w (some b) := .pendingOp h b.pendingOp
  unfold evaluatedRecord WindowBody.finished
  dsimp only
  split
  · split
    · exact same
    · exact .pendingOp h _
    · exact .freed
    · exact .pendingOp h _
  · exact same

theorem State.evaluate_follows (s : State) (w : WindowId) : s.Follows (s.evaluate w) := by
  rcases hb : (s.record w).body with _ | b
  · rw [s.evaluate_free w hb]
    exact .refl s
  · obtain ⟨hport, htable, hlinks, hengine, -, hconfig, -⟩ := s.evaluate_spec w b hb
    refine .of_same (.change (.same rfl) (.evaluated hb (s.record w).generation) (by rw [htable]))
      ⟨by rw [htable], by rw [htable], by rw [hengine], hconfig, fun p => by simp [hport]⟩ (by rw [hlinks])
      (by rw [htable])

theorem State.RecordChange.left {s : State} {w : WindowId} {b : WindowBody} (h : (s.record w).body = some b)
    (p : PortId) : s.RecordChange w (some (b.removeOutstanding p)) :=
  .changed h (.of_same s w rfl rfl rfl (fun _ => le_max_right _ _) fun hs => WindowBody.removeOutstanding_set hs p)

/-! ### Messages to the table -/

theorem State.count_lt_of_not_full {s : State} {w : WindowId} {e : Epoch} (h : ¬ s.countFull w e = true) :
    (s.record w).count e < 23 :=
  not_le.1 fun hc => h (decide_eq_true hc)

/-- The table has taken the walk of port p: the arbiter's order turns, and the walk no longer waits (R22, R76). -/
def State.walkTaken (s : State) (p : PortId) : State :=
  (({ s with table := { s.table with walkOrder := moveToEnd p s.table.walkOrder } } : State).setWaitingWalk p
    none).settleWalk p

/-- The count of an answer: an ADMIT raises the count of its copy's window and epoch (R20). -/
def State.countAnswer (s : State) (m : TableMessage) : State :=
  match m with
  | .admitted c => s.modifyCount c.window c.epoch (· + 1)
  | _ => s

theorem State.takeWalk_eq (s : State) (p : PortId) (h : AccessHead) :
    s.takeWalk p h =
      ((s.walkTaken p).countAnswer (s.table.answerWalk p h)).sendToPort p (s.table.answerWalk p h) := rfl

theorem State.walkTaken_follows (s : State) (p : PortId) : s.Follows (s.walkTaken p) := by
  have turned : s.Follows { s with table := { s.table with walkOrder := moveToEnd p s.table.walkOrder } } :=
    ⟨.same rfl, fun ⟨⟨h1, h2, h3⟩, h4, h5, h6⟩ => ⟨⟨moveToEnd_perm h1 p, h2, h3⟩, h4, h5, h6⟩⟩
  exact turned.trans (State.settleWalk_follows (.same rfl) ⟨rfl, rfl, rfl, rfl, fun _ => rfl⟩ fun q hq => by simp [hq])

theorem State.takeWalk_follows {s : State} {p : PortId} {h : AccessHead} (hb : s.walkHeldBack p h = false) :
    s.Follows (s.takeWalk p h) := by
  have hrec : ∀ w, (s.walkTaken p).record w = s.record w := State.record_congr (by simp [State.walkTaken])
  rw [State.takeWalk_eq]
  refine ((s.walkTaken_follows p).trans ?_).trans (State.sendToPort_follows _ _ _)
  unfold State.countAnswer
  split
  · rename_i c ha
    refine State.modifyCount_follows _ _ _ _ ?_
    rw [hrec]
    have : (s.record c.window).count c.epoch < 23 :=
      State.count_lt_of_not_full (by simpa [State.walkHeldBack, ha] using hb)
    omega
  · exact .refl _

theorem execWalk_follows {s t : State} (h : execWalk s = .next t) : s.Follows t := by
  cases h
  split
  · exact .refl s
  · split
    · exact .refl s
    · rename_i hb
      exact State.takeWalk_follows (by simpa using hb)

theorem State.offerAdded_follows (s : State) (p : PortId) : s.Follows (s.offerAdded p) := by
  unfold State.offerAdded
  split
  · exact s.offer_follows p _ _
  · exact .refl s

theorem execAddition_follows {p : PortId} {s t : State} (h : execAddition p s = .next t) : s.Follows t := by
  cases h
  split
  · rename_i w e rest _
    split
    · exact .refl s
    · rename_i hf
      refine (((s.takeFromPort_follows p rest).trans (State.modifyCount_follows _ w e _ ?_)).trans
        (State.evaluate_follows _ w)).trans (State.offerAdded_follows _ p)
      rw [State.record_congr (by simp : (s.takeFromPort p rest).table.records = s.table.records)]
      have := State.count_lt_of_not_full hf
      omega
  · exact .refl s

theorem State.subtract_follows (s : State) (w : WindowId) (e : Epoch) : s.Follows (s.subtract w e) :=
  (s.modifyCount_follows w e (· - 1) ((Nat.sub_le _ _).trans (le_max_right _ _))).trans (State.evaluate_follows _ w)

theorem execSubtraction_follows {sender : SubtractionSender} {s t : State} (h : execSubtraction sender s = .next t) :
    s.Follows t := by
  cases h
  split
  · split
    · exact (s.takeFromPort_follows _ _).trans (State.subtract_follows _ _ _)
    · exact .refl s
  · split
    · rename_i rest _
      have h0 : s.Follows { s with links := { s.links with engineToTable := rest } } := .of_frame rfl rfl rfl rfl rfl
      exact h0.trans (State.subtract_follows _ _ _)
    · exact .refl s

theorem State.acknowledge_follows (s : State) (p : PortId) (w : WindowId) (g : Generation) :
    s.Follows (s.acknowledge p w g) := by
  unfold State.acknowledge
  split
  · exact .refl s
  · rename_i b hb
    split
    · exact (s.setBody_follows w _ (.left hb p)).trans (State.evaluate_follows _ w)
    · exact .refl s

theorem execAcknowledgement_follows {p : PortId} {s t : State} (h : execAcknowledgement p s = .next t) :
    s.Follows t := by
  cases h
  split
  · exact (s.takeFromPort_follows p _).trans (State.acknowledge_follows _ _ _ _)
  · exact .refl s

theorem State.leaveSet_follows (s : State) (p : PortId) (w : WindowId) : s.Follows (s.leaveSet p w) := by
  unfold State.leaveSet
  split
  · exact .refl s
  · rename_i b hb
    split
    · exact (s.setBody_follows w _ (.left hb p)).trans (State.evaluate_follows _ w)
    · exact .refl s

/-- One operation after another, over a list. -/
theorem State.foldl_follows {α : Type} (f : State → α → State) (h : ∀ (t : State) x, t.Follows (f t x)) (l : List α)
    (s : State) : s.Follows (l.foldl f s) := by
  induction l generalizing s with
  | nil => exact .refl s
  | cons x l ih => exact (h s x).trans (ih _)

theorem State.setView_follows (s : State) (p : PortId) (b : Bool) : s.Follows (s.setView p b) :=
  .of_same (.same rfl) ⟨rfl, rfl, rfl, rfl, fun _ => rfl⟩ rfl rfl

theorem execOfflineNotice_follows {p : PortId} {s t : State} (h : execOfflineNotice p s = .next t) : s.Follows t := by
  cases h
  split
  · exact ((s.takeFromPort_follows p _).trans (State.setView_follows _ p true)).trans
      (State.foldl_follows _ (fun t w => t.leaveSet_follows p w) _ _)
  · exact .refl s

theorem execOnlineNotice_follows {p : PortId} {s t : State} (h : execOnlineNotice p s = .next t) : s.Follows t := by
  cases h
  split
  · exact (s.takeFromPort_follows p _).trans (State.setView_follows _ p false)
  · exact .refl s

/-! ### Window requests (Section 3) -/

/-- The conditions in which a window that is not FREE takes a request (R50). -/
theorem WindowRecord.condition_phase {r : WindowRecord} {k : RequestKind} {b : WindowBody} (h : r.condition k = none)
    (hb : r.body = some b) :
    (b.phase, k) ∈ [(WindowPhase.staged, RequestKind.amend), (.staged, .enable), (.staged, .retire), (.live, .hold),
      (.live, .retire), (.live, .setRights), (.held, .release), (.held, .amend), (.held, .retire)] := by
  unfold WindowRecord.condition at h
  rw [hb] at h
  dsimp only at h
  have refused : (if b.holdSettled then some ResultCode.state else some .busy) ≠ none := by split <;> simp
  rcases hp : b.phase <;> rw [hp] at h <;> cases k <;> simp [refused] at h ⊢

theorem State.takeTableRequest_follows (s : State) (p : PortId) : s.Follows (s.takeTableRequest p) := by
  have h0 : s.Follows { s with table := { s.table with requestOrder := moveToEnd p s.table.requestOrder } } :=
    ⟨.same rfl, fun ⟨⟨h1, h2, h3⟩, h4, h5, h6⟩ => ⟨⟨h1, moveToEnd_perm h2 p, h3⟩, h4, h5, h6⟩⟩
  exact h0.trans (State.requestTaken_follows _ p)

theorem State.onTableRequest_follows (s : State) (kind : RequestKind) (act : PortId → Captured → State → State)
    (h : ∀ p c t, State.Follows t (act p c t)) : s.Follows (s.onTableRequest kind act) := by
  unfold State.onTableRequest
  split
  · exact .refl s
  · split
    · exact (s.takeTableRequest_follows _).trans (h _ _ _)
    · exact .refl s

theorem State.examineRequest_follows (s : State) (kind : RequestKind) (p : PortId) (c : Captured)
    (act : WindowId → State → State) (h : ∀ w, (s.record w).condition kind = none → s.Follows (act w s)) :
    s.Follows (s.examineRequest kind p c act) := by
  unfold State.examineRequest State.refuse
  dsimp only
  split_ifs
  · exact s.postResult_follows _ _ _
  · exact s.postResult_follows _ _ _
  · split
    · exact s.postResult_follows _ _ _
    · rename_i hc
      exact h _ hc
  · exact s.postResult_follows _ _ _

/-- A window request that the arbiter chooses, examined (R49). -/
theorem State.windowRequest_follows (s : State) (kind : RequestKind)
    (act : PortId → Captured → WindowId → State → State)
    (h : ∀ (t : State) p c w, (t.record w).condition kind = none → t.Follows (act p c w t)) :
    s.Follows (s.onTableRequest kind fun p c t => t.examineRequest kind p c (act p c)) :=
  s.onTableRequest_follows kind _ fun p c t => t.examineRequest_follows kind p c _ fun w hw => h t p c w hw

theorem State.refuse_follows (s : State) (p : PortId) (c : Captured) (code : ResultCode) (g : Option Generation) :
    s.Follows (s.refuse p c code g) :=
  s.postResult_follows _ _ _

theorem State.postDone_follows (s : State) (w : WindowId) (p : PortId) (c : Captured) : s.Follows (s.postDone w p c) :=
  s.postResult_follows _ _ _

theorem State.postCancelled_follows (s : State) (w : WindowId) (op : Option PendingOp) :
    s.Follows (s.postCancelled w op) := by
  unfold State.postCancelled
  split
  · exact s.postResult_follows _ _ _
  · exact .refl s

/-- A set filled with the ports not OFFLINE in the table's view, with its set generation (R15, R80). -/
theorem State.onlinePorts_set (s : State) (b : WindowBody) (g : Generation) :
    ({ b with shootSet := s.onlinePorts, setGeneration := if s.onlinePorts = [] then none else some g } :
      WindowBody).SetHasGeneration := by
  refine ⟨List.filter_sublist, ?_⟩
  by_cases h : s.onlinePorts = [] <;> simp [h]

/-- A long operation started on a window (R15, R53), which keeps its fields and its counts. -/
theorem State.startOperation_follows {s : State} {w : WindowId} {b b' : WindowBody} (hb : (s.record w).body = some b)
    (hterms : b'.terms = b.terms) (hcounts : b'.counts = b.counts)
    (fits : b'.matching = true → ¬ s.Overlaps w b.terms b'.rights ∨
      (b.matching = true ∧ ∀ p, b'.rights.get p ≠ .noRight → b.rights.get p ≠ .noRight)) :
    s.Follows (s.startOperation w b') := by
  refine State.Follows.trans ?_ (State.sendToPorts_follows _ _ _)
  refine s.changeWindow_follows w _ (.changed hb ⟨fun h => ?_, .inl hterms, fun e => ?_, fun _ => ?_⟩)
  · exact (fits h).imp (fun hno => hterms ▸ hno) fun ⟨hm, hr⟩ => ⟨hm, hterms, hr⟩
  · exact hcounts ▸ le_max_right _ _
  · exact s.onlinePorts_set b' _

theorem execDefine_follows {s t : State} (h : execDefine s = .next t) : s.Follows t := by
  cases h
  refine s.windowRequest_follows .define (fun p c w u => u.takeDefine p c w) fun t p c w _ => ?_
  unfold State.takeDefine
  split
  · exact t.refuse_follows _ _ _ _
  · rename_i r hf
    exact ((t.changeWindow_follows w _ (.defined r (Captured.fieldSet_valid hf))).trans
      (State.setLinkEpoch_follows _ w none)).trans (State.postDone_follows _ _ _ _)

theorem execAmend_follows {s t : State} (h : execAmend s = .next t) : s.Follows t := by
  cases h
  refine s.windowRequest_follows .amend (fun p c w u => u.takeAmend p c w) fun t p c w hw => ?_
  unfold State.takeAmend
  dsimp only
  split
  · rename_i terms rights b hf hb
    have phase := WindowRecord.condition_phase hw hb
    split
    · exact t.refuse_follows _ _ _ _
    · rename_i hpass
      refine State.Follows.trans (State.Follows.trans ?_ (State.setLinkEpoch_follows _ w none))
        (State.postDone_follows _ _ _ _)
      refine t.changeWindow_follows w _ (.changed hb ⟨fun hm => .inl ?_, .inr (Captured.fieldSet_valid hf),
        fun _ => le_max_right _ _, id⟩)
      have held : b.phase = .held := by
        rcases (WindowBody.matching_iff _).1 hm with hl | hh
        · have hl : b.phase = .live := hl
          simp [hl] at phase
        · exact hh
      exact (t.overlapPasses_iff w terms rights).1 (by simpa [held] using hpass)
  · exact t.refuse_follows _ _ _ _

theorem execEnable_follows {s t : State} (h : execEnable s = .next t) : s.Follows t := by
  cases h
  refine s.windowRequest_follows .enable (fun p c w u => u.takeEnable p c w) fun t p c w _ => ?_
  unfold State.takeEnable
  split
  · exact .refl t
  · rename_i b hb
    split
    · rename_i hpass
      refine State.Follows.trans (State.Follows.trans ?_ (State.setLinkEpoch_follows _ w _))
        (State.postDone_follows _ _ _ _)
      exact t.changeWindow_follows w _ (.changed hb ⟨fun _ => .inl ((t.overlapPasses_iff _ _ _).1 hpass), .inl rfl,
        fun _ => le_max_right _ _, id⟩)
    · exact t.refuse_follows _ _ _ _

theorem execHold_follows {s t : State} (h : execHold s = .next t) : s.Follows t := by
  cases h
  refine s.windowRequest_follows .hold (fun p c w u => u.takeHold p c w) fun t p c w hw => ?_
  unfold State.takeHold
  split
  · exact .refl t
  · rename_i b hb
    have live : b.phase = .live := by simpa using WindowRecord.condition_phase hw hb
    refine State.Follows.trans (State.Follows.trans ?_ (State.breakAndLink_follows _ w none))
      (State.evaluate_follows _ w)
    exact State.startOperation_follows hb rfl rfl fun _ => .inr ⟨b.matching_iff.2 (.inl live), fun _ => id⟩

theorem execRelease_follows {s t : State} (h : execRelease s = .next t) : s.Follows t := by
  cases h
  refine s.windowRequest_follows .release (fun p c w u => u.takeReleaseRequest p c w) fun t p c w hw => ?_
  unfold State.takeReleaseRequest
  split
  · exact .refl t
  · rename_i b hb
    have held : b.phase = .held := by simpa using WindowRecord.condition_phase hw hb
    split
    · exact t.refuse_follows _ _ _ _
    · have returned : t.RecordChange w (some { b with phase := .live, pendingOp := none }) :=
        .changed hb ⟨fun _ => .inr ⟨b.matching_iff.2 (.inr held), rfl, fun _ => id⟩, .inl rfl,
          fun _ => le_max_right _ _, id⟩
      exact ((((t.changeWindow_follows w _ returned).trans (State.setLinkEpoch_follows _ w _)).trans
        (State.sendToPorts_follows _ _ _)).trans (State.postDone_follows _ _ _ _)).trans
        (State.postCancelled_follows _ _ _)

theorem execRetire_follows {s t : State} (h : execRetire s = .next t) : s.Follows t := by
  cases h
  refine s.windowRequest_follows .retire (fun p c w u => u.takeRetireRequest p c w) fun t p c w _ => ?_
  have freed : t.Follows ((t.changeWindow w none).breakAndLink w none) :=
    (t.changeWindow_follows w none .freed).trans (State.breakAndLink_follows _ w none)
  unfold State.takeRetireRequest
  split
  · exact .refl t
  · rename_i b hb
    split
    · refine State.Follows.trans (State.Follows.trans ?_ (State.breakAndLink_follows _ w none))
        (State.evaluate_follows _ w)
      exact State.startOperation_follows hb rfl rfl fun hm => by simp [WindowBody.matching] at hm
    · exact (freed.trans (State.sendToPorts_follows _ _ _)).trans (State.postDone_follows _ _ _ _)
    · exact freed.trans (State.postDone_follows _ _ _ _)

/-- Rights that no port gains are held by no port that held none (R18, R70). -/
theorem right_of_not_gains {old new : Rights} (h : gains old new = false) {p : PortId} (hp : new.get p ≠ .noRight) :
    old.get p ≠ .noRight := by
  intro hn
  have := List.any_eq_false.1 h p (mem_allPorts p)
  simp [hn, hp] at this

theorem execSetRights_follows {s t : State} (h : execSetRights s = .next t) : s.Follows t := by
  cases h
  refine s.windowRequest_follows .setRights (fun p c w u => u.takeSetRights p c w) fun t p c w hw => ?_
  unfold State.takeSetRights
  dsimp only
  split
  · rename_i r b _ hb
    have live : b.phase = .live := by simpa using WindowRecord.condition_phase hw hb
    split
    · exact t.refuse_follows _ _ _ _
    · rename_i hpass
      refine State.Follows.trans ?_ (State.evaluate_follows _ w)
      have fits : ¬ t.Overlaps w b.terms r ∨
          (b.matching = true ∧ ∀ p, r.get p ≠ .noRight → b.rights.get p ≠ .noRight) := by
        rcases hg : gains b.rights r with _ | _
        · exact .inr ⟨b.matching_iff.2 (.inl live), fun p => right_of_not_gains hg⟩
        · exact .inl ((t.overlapPasses_iff _ _ _).1 (by simpa [hg] using hpass))
      split
      · refine State.Follows.trans ?_ (State.breakAndLink_follows _ _ _)
        exact State.startOperation_follows hb rfl rfl fun _ => fits
      · exact State.startOperation_follows hb rfl rfl fun _ => fits
  · exact t.refuse_follows _ _ _ _

theorem execQueryWindow_follows {s t : State} (h : execQueryWindow s = .next t) : s.Follows t := by
  cases h
  refine s.onTableRequest_follows _ _ fun p c t => ?_
  unfold State.takeQueryWindow State.refuse
  dsimp only
  split_ifs <;> exact t.postResult_follows _ _ _

end Sys2Proof.Machine
end

section
/-! The commands that leave the records as they are, the resets, and the case split over all commands. -/

namespace Sys2Proof.Machine

/-! ### Arrivals -/

theorem State.issue_follows (s : State) (p : PortId) : s.Follows (s.issue p) := by
  unfold State.issue State.sendRequest
  dsimp only
  split
  · have capture := s.modifySlot_follows p Slot.capturing
    split
    · exact capture.trans (State.postResult_follows _ _ _ _)
    · split
      · exact capture.trans (State.modifySlot_follows _ _ _)
      · exact capture.trans (State.setRequest_follows _ _ _)
  · exact s.modifySlot_follows p _

theorem State.accessSlot_follows (s : State) (p : PortId) (a : Access) : s.Follows (s.accessSlot p a) := by
  have write : ∀ w v, s.Follows (s.writeSlot p w v) := by
    intro w v
    cases w with
    | plain w => exact s.modifySlot_follows p fun sl => sl.writePlain w v
    | issue => exact s.issue_follows p
    | acknowledge => exact s.modifySlot_follows p _
  unfold State.accessSlot
  split
  · exact s.answer_follows p _
  · split
    · exact (write _ _).trans (State.answer_follows _ p _)
    · exact s.answer_follows p _

/-- A hit makes a valid entry the most recently used (R33). -/
theorem State.hitEntry_follows {s : State} {p : PortId} {i : Fin 4} {c : Copy}
    (h : (s.port p).lookaside.entries.get i = some c) (a : Access) : s.Follows (s.hitEntry p a i c) := by
  have touched : s.Follows (s.setLookaside p ((s.port p).lookaside.touch i)) :=
    s.modifyPort_follows p _ fun k => k.touch (by simp [h])
  unfold State.hitEntry
  dsimp only
  split
  · exact touched.trans (State.failMatch_follows _ _ _ _ _)
  · exact ((touched.trans (State.setCurrent_follows _ _ _)).trans (State.dropForLinkedRead_follows _ _ _)).trans
      (State.sendToTable_follows _ _ _)

theorem State.lookUp_follows (s : State) (p : PortId) (a : Access) : s.Follows (s.lookUp p a) := by
  unfold State.lookUp
  split
  · rename_i hit
    exact State.hitEntry_follows (Lookaside.hit_entry hit) a
  · exact s.startWalk_follows p a

theorem State.checkArrival_follows (s : State) (p : PortId) (a : Access) : s.Follows (s.checkArrival p a) := by
  unfold State.checkArrival
  split_ifs
  · exact s.failMatch_follows p _ _ _
  · exact s.answer_follows p _
  · exact s.accessSlot_follows p a
  · exact s.lookUp_follows p a

theorem State.arrive_follows (s : State) (p : PortId) (a : Access) : s.Follows (s.arrive p a) := by
  have answered := s.answer_follows p .error
  have slot := s.accessSlot_follows p a
  unfold State.arrive
  split
  · exact answered
  · split
    · exact answered
    · split
      · exact slot
      · exact answered
    · split
      · exact slot
      · exact answered
    · exact s.checkArrival_follows p a

theorem State.presentAccess_follows (s : State) (p : PortId) (a : Access) : s.Follows (s.presentAccess p a) := by
  unfold State.presentAccess
  split
  · exact (s.modifyPort_follows p _ id).trans (State.arrive_follows _ p a)
  · exact .refl s

/-! ### Messages to the ports -/

/-- A copy installed in the lookaside of the port that takes it (R35). -/
theorem State.install_follows (s : State) (p : PortId) (c : Copy) :
    s.Follows (s.setLookaside p ((s.port p).lookaside.install c)) :=
  s.modifyPort_follows p _ fun k => k.install c

theorem State.takeAdmitted_follows (s : State) (p : PortId) (c : Copy) : s.Follows (s.takeAdmitted p c) := by
  unfold State.takeAdmitted
  split
  · exact (s.discardAnswer_follows p).trans (State.sendToTable_follows _ _ _)
  · split
    · exact (((s.install_follows p c).trans (State.setCurrent_follows _ _ _)).trans
        (State.dropForLinkedRead_follows _ _ _)).trans (State.offer_follows _ _ _ _)
    · exact .refl s

theorem State.takeDenied_follows (s : State) (p : PortId) (c : Copy) (k : FaultKind) :
    s.Follows (s.takeDenied p c k) := by
  unfold State.takeDenied
  split
  · exact s.discardAnswer_follows p
  · split
    · exact (s.install_follows p c).trans (State.failMatch_follows _ _ _ _ _)
    · exact .refl s

theorem State.takeNoWindow_follows (s : State) (p : PortId) : s.Follows (s.takeNoWindow p) := by
  unfold State.takeNoWindow
  split
  · exact s.discardAnswer_follows p
  · split
    · exact s.failMatch_follows _ _ _ _
    · exact .refl s

theorem State.takePark_follows (s : State) (p : PortId) (w : WindowId) : s.Follows (s.takePark p w) := by
  unfold State.takePark
  split
  · exact s.discardAnswer_follows p
  · split
    · exact s.setCurrent_follows _ _
    · exact .refl s

theorem State.takeRelease_follows (s : State) (p : PortId) (w : WindowId) : s.Follows (s.takeRelease p w) := by
  unfold State.takeRelease
  split
  · split
    · exact s.startWalk_follows p _
    · exact .refl s
  · exact .refl s

theorem State.takeRetire_follows (s : State) (p : PortId) (w : WindowId) : s.Follows (s.takeRetire p w) := by
  unfold State.takeRetire
  split
  · split
    · exact s.endCurrent_follows p _ _
    · exact .refl s
  · exact .refl s

theorem execAdmitAnswer_follows {p : PortId} {s t : State} (h : execAdmitAnswer p s = .next t) : s.Follows t := by
  cases h
  split
  · exact (s.setToPort_follows p _).trans (State.takeAdmitted_follows _ p _)
  · exact .refl s

theorem execDenyAnswer_follows {p : PortId} {s t : State} (h : execDenyAnswer p s = .next t) : s.Follows t := by
  cases h
  split
  · exact (s.setToPort_follows p _).trans (State.takeDenied_follows _ p _ _)
  · exact .refl s

theorem execNoneAnswer_follows {p : PortId} {s t : State} (h : execNoneAnswer p s = .next t) : s.Follows t := by
  cases h
  split
  · exact (s.setToPort_follows p _).trans (State.takeNoWindow_follows _ p)
  · exact .refl s

theorem execParkAnswer_follows {p : PortId} {s t : State} (h : execParkAnswer p s = .next t) : s.Follows t := by
  cases h
  split
  · exact (s.setToPort_follows p _).trans (State.takePark_follows _ p _)
  · exact .refl s

theorem execShootDown_follows {p : PortId} {s t : State} (h : execShootDown p s = .next t) : s.Follows t := by
  cases h
  split
  · exact ((s.setToPort_follows p _).trans (State.modifyPort_follows _ p _ fun k => k.invalidate _)).trans
      (State.sendToTable_follows _ _ _)
  · exact .refl s

theorem execReleaseNotice_follows {p : PortId} {s t : State} (h : execReleaseNotice p s = .next t) : s.Follows t := by
  cases h
  split
  · exact (s.setToPort_follows p _).trans (State.takeRelease_follows _ p _)
  · exact .refl s

theorem execRetireNotice_follows {p : PortId} {s t : State} (h : execRetireNotice p s = .next t) : s.Follows t := by
  cases h
  split
  · exact (s.setToPort_follows p _).trans (State.takeRetire_follows _ p _)
  · exact .refl s

theorem execParkTimerExpiry_follows {p : PortId} {s t : State} (h : execParkTimerExpiry p s = .next t) :
    s.Follows t := by
  cases h
  split
  · exact s.endCurrent_follows p _ _
  · exact .refl s

/-! ### Requests to ports and to the configuration unit -/

theorem State.onRequest_follows (s : State) (kind : RequestKind) (issuer : PortId) (act : Captured → State → State)
    (h : ∀ c (t : State), t.Follows (act c t)) : s.Follows (s.onRequest kind issuer act) := by
  unfold State.onRequest
  split
  · exact .refl s
  · split
    · exact (s.requestTaken_follows issuer).trans (h _ _)
    · exact .refl s

theorem State.onPortRequest_follows (s : State) (kind : RequestKind) (issuer : PortId)
    (act : PortId → Captured → State → State) (h : ∀ q c (t : State), t.Follows (act q c t)) :
    s.Follows (s.onPortRequest kind issuer act) := by
  refine s.onRequest_follows kind issuer _ fun c t => ?_
  split
  · exact h _ _ _
  · exact t.postResult_follows _ _ _

theorem State.reply_follows (s : State) (p : PortId) (c : Captured) (code : ResultCode) :
    s.Follows (s.reply p c code) :=
  s.postResult_follows _ _ _

/-- A change of a port's unit that keeps its lookaside, answered at once. -/
theorem State.modifyPort_reply_follows (s : State) (q p : PortId) (f : PortUnit → PortUnit) (c : Captured)
    (code : ResultCode) (h : ∀ u, (f u).lookaside = u.lookaside) : s.Follows ((s.modifyPort q f).reply p c code) :=
  (s.modifyPort_follows q f fun k => by rwa [h]).trans (State.reply_follows _ _ _ _)

theorem execPortOnline_follows {p : PortId} {s t : State} (h : execPortOnline p s = .next t) : s.Follows t := by
  cases h
  refine s.onPortRequest_follows _ p _ fun q c t => ?_
  unfold State.takeOnline
  split
  · exact t.reply_follows _ _ _
  · split
    · exact t.reply_follows _ _ _
    · exact (((t.modifyPort_follows q (fun u => { u with state := .active }) id).trans
        (State.sendToTable_follows _ _ _)).trans (State.setPermission_follows _ _ _)).trans
        (State.reply_follows _ _ _ _)

theorem execPortOffline_follows {p : PortId} {s t : State} (h : execPortOffline p s = .next t) : s.Follows t := by
  cases h
  refine s.onPortRequest_follows _ p _ fun q c t => ?_
  unfold State.takeOffline
  split_ifs
  · exact t.reply_follows _ _ _
  · exact t.reply_follows _ _ _
  · exact t.reply_follows _ _ _
  · exact (((t.modifyPort_follows q (fun u => { u with state := .quiescing, offlineRequester := some (p, c.number) })
      id).trans (State.setReservation_follows _ _ _)).trans (State.setPermission_follows _ _ _)).trans
      (State.evaluateQuiesce_follows _ _)
  · exact t.reply_follows _ _ _

theorem execFence_follows {p : PortId} {s t : State} (h : execFence p s = .next t) : s.Follows t := by
  cases h
  refine s.onPortRequest_follows _ p _ fun q c t => ?_
  unfold State.takeFence
  split_ifs
  · exact t.reply_follows _ _ _
  · exact t.reply_follows _ _ _
  · exact t.modifyPort_reply_follows _ _ _ _ _ fun _ => rfl
  · exact t.reply_follows _ _ _

theorem execUnfence_follows {p : PortId} {s t : State} (h : execUnfence p s = .next t) : s.Follows t := by
  cases h
  refine s.onPortRequest_follows _ p _ fun q c t => ?_
  unfold State.takeUnfence
  split_ifs
  · exact t.reply_follows _ _ _
  · exact t.modifyPort_reply_follows _ _ _ _ _ fun _ => rfl
  · exact t.reply_follows _ _ _

theorem execClearFault_follows {p : PortId} {s t : State} (h : execClearFault p s = .next t) : s.Follows t := by
  cases h
  refine s.onPortRequest_follows _ p _ fun q c t => ?_
  unfold State.takeClearFault
  split
  · exact t.modifyPort_reply_follows _ _ _ _ _ fun _ => rfl
  · exact t.reply_follows _ _ _

theorem execQueryPort_follows {p : PortId} {s t : State} (h : execQueryPort p s = .next t) : s.Follows t := by
  cases h
  refine s.onPortRequest_follows _ p _ fun q c t => ?_
  unfold State.takeQueryPort
  split
  · split <;> exact t.postResult_follows _ _ _
  · exact t.reply_follows _ _ _

/-- A parameter is set only to a value in its range (R191, R192). -/
theorem ConfigUnit.setParam_inRange {s : State} {selector value : Nat} {g : ConfigUnit}
    (h : s.config.setParam selector value = some g) (hs : s.ParametersInRange) :
    ({ s with config := g } : State).ParametersInRange := by
  obtain ⟨hpark, hresponse, hretry, hranks⟩ := hs
  unfold ConfigUnit.setParam at h
  split at h <;> split at h <;> cases h
  · rename_i hv
    exact ⟨hv, hresponse, hretry, hranks⟩
  · rename_i hv
    exact ⟨hpark, hv, hretry, hranks⟩
  · rename_i hv
    exact ⟨hpark, hresponse, hv, hranks⟩
  · rename_i hv
    refine ⟨hpark, hresponse, hretry, fun p => ?_⟩
    simp only [vput_get]
    split
    · exact hv
    · exact hranks p

theorem execSetParam_follows {p : PortId} {s t : State} (h : execSetParam p s = .next t) : s.Follows t := by
  cases h
  refine s.onRequest_follows _ p _ fun c t => ?_
  unfold State.takeSetParam
  split
  · exact t.reply_follows _ _ _
  · split
    · exact t.reply_follows _ _ _
    · split
      · rename_i hg
        exact (t.setConfig_follows _ (ConfigUnit.setParam_inRange hg)).trans (State.reply_follows _ _ _ _)
      · exact t.reply_follows _ _ _

theorem execClearDeviceFault_follows {p : PortId} {s t : State} (h : execClearDeviceFault p s = .next t) :
    s.Follows t := by
  cases h
  refine s.onRequest_follows _ p _ fun c t => ?_
  unfold State.takeClearDeviceFault
  split
  · refine State.Follows.trans ?_ (State.reply_follows _ _ _ _)
    exact t.setConfig_follows _ id
  · exact t.reply_follows _ _ _

theorem execQueryDevice_follows {p : PortId} {s t : State} (h : execQueryDevice p s = .next t) : s.Follows t := by
  cases h
  refine s.onRequest_follows _ p _ fun c t => ?_
  unfold State.takeQueryDevice
  split
  · split <;> exact t.postResult_follows _ _ _
  · exact t.reply_follows _ _ _

/-! ### The system bus -/

theorem State.endPart_follows (s : State) : s.Follows (s.modifyEngine Engine.endPart) := s.modifyEngine_follows _ id

theorem State.partCompleted_follows (s : State) (r : BusAccess) : s.Follows (s.partCompleted r) := by
  unfold State.partCompleted
  split
  · exact (s.keepAccess_follows r).trans (State.startPart_follows _)
  · exact (s.keepAccess_follows r).trans (State.completeAccess_follows _ _)

theorem State.retryPart_follows (s : State) (r : BusAccess) : s.Follows (s.retryPart r) := by
  unfold State.retryPart
  dsimp only
  split
  · exact (s.modifyEngine_follows _ id).trans (State.choose_follows _)
  · exact s.failAccess_follows _ _

theorem execPartAck_follows {lanes : Word} {n : Nat} {s t : State} (h : execPartAck lanes s n = .next t) :
    s.Follows t := by
  cases h
  split
  · exact .refl s
  · rename_i part _
    refine (s.endPart_follows.trans (State.reportPart_follows _ part)).trans ?_
    split
    · exact State.endAbandoned_follows _ _
    · exact State.partCompleted_follows _ _

theorem execPartErr_follows {n : Nat} {s t : State} (h : execPartErr s n = .next t) : s.Follows t := by
  cases h
  split
  · exact .refl s
  · refine s.endPart_follows.trans ?_
    split
    · exact State.endAbandoned_follows _ _
    · exact State.failAccess_follows _ _ _

theorem execPartRty_follows {n : Nat} {s t : State} (h : execPartRty s n = .next t) : s.Follows t := by
  cases h
  split
  · exact .refl s
  · refine s.endPart_follows.trans ?_
    split
    · exact State.endAbandoned_follows _ _
    · exact State.retryPart_follows _ _

theorem execResponseTimerExpiry_follows {s t : State} (h : execResponseTimerExpiry s = .next t) : s.Follows t := by
  cases h
  split
  · exact .refl s
  · refine s.endPart_follows.trans ?_
    split
    · exact State.endAbandoned_follows _ _
    · exact State.failAccess_follows _ _ _

theorem execRetryWaitExpiry_follows {s t : State} (h : execRetryWaitExpiry s = .next t) : s.Follows t := by
  cases h
  split
  · exact (s.modifyEngine_follows _ id).trans (State.choose_follows _)
  · exact .refl s

theorem execExternalRequest_follows {s t : State} (h : execExternalRequest s = .next t) : s.Follows t := by
  cases h
  split
  · exact .refl s
  · exact (s.modifyEngine_follows _ id).trans (State.choose_follows _)

theorem Engine.withdrawExternal_rotation (e : Engine) : e.withdrawExternal.rotation = e.rotation := by
  unfold Engine.withdrawExternal
  split <;> rfl

theorem execExternalWithdraw_follows {s t : State} (h : execExternalWithdraw s = .next t) : s.Follows t := by
  cases h
  have withdrawn := s.modifyEngine_follows Engine.withdrawExternal fun k => by
    rwa [Engine.withdrawExternal_rotation]
  split
  · exact withdrawn.trans (State.choose_follows _)
  · exact withdrawn

theorem execExternalWriteAck_follows {a : SysAddr} {z : AccessSize} {s t : State}
    (h : execExternalWriteAck a z s = .next t) : s.Follows t := by
  cases h
  split
  · exact s.keepReservations_follows _
  · exact .refl s

theorem execEntryFinishedReport_follows {p : PortId} {s t : State} (h : execEntryFinishedReport p s = .next t) :
    s.Follows t := by
  cases h
  split
  · exact .refl s
  · refine State.Follows.trans ?_ (State.evaluateQuiesce_follows _ p)
    refine State.Follows.trans ?_ (State.modifyPort_follows _ p _ id)
    exact .of_frame rfl rfl rfl rfl rfl

/-! ### Resets -/

theorem State.abandonOnBus_follows (s : State) (p : PortId) : s.Follows (s.abandonOnBus p) := by
  unfold State.abandonOnBus
  split
  · exact .refl s
  · split
    · split
      · exact s.modifyEngine_follows _ id
      · exact ((s.engineSubtract_follows _ _).trans (State.modifyEngine_follows _ _ id)).trans (State.choose_follows _)
    · exact .refl s

theorem State.abandonCurrent_follows (s : State) (p : PortId) : s.Follows (s.abandonCurrent p) := by
  have idle := s.setCurrent_follows p .idle
  unfold State.abandonCurrent
  dsimp only
  split
  · exact idle
  · exact idle.trans (State.modifyPort_follows _ p _ id)
  · exact idle
  · exact idle
  · exact (idle.trans (State.modifyEngine_follows _ _ id)).trans (State.sendToTable_follows _ _ _)
  · exact idle.trans (State.abandonOnBus_follows _ p)

theorem State.resetPort_follows (s : State) (p : PortId) : s.Follows (s.resetPort p) :=
  ((((s.abandonCurrent_follows p).trans (State.modifyPort_follows _ p _ fun _ => emptyLookaside_wellKept)).trans
    (State.setReservation_follows _ p none)).trans (State.clearSlot_follows _ p)).trans
    (State.evaluateQuiesce_follows _ p)

theorem State.setResetInput_follows (s : State) (p : PortId) (b : Bool) : s.Follows (s.setResetInput p b) :=
  s.modifyPort_follows p _ id

theorem execPortReset_follows {p : PortId} {s t : State} (h : execPortReset p s = .next t) : s.Follows t := by
  cases h
  split
  · exact .refl s
  · exact (s.setResetInput_follows p true).trans (State.resetPort_follows _ p)

theorem State.deviceReset_unitsLegal (s : State) (st : Straps) : (s.deviceReset st).UnitsLegal := by
  have parameters : (s.deviceReset st).ParametersInRange := by
    refine ⟨?_, ?_, ?_, fun p => ?_⟩ <;> simp [State.deviceReset, resetConfig]
  refine ⟨⟨.refl _, .refl _, .refl _⟩, parameters, fun p => ?_, fun p h rest ht => ?_⟩
  · simpa [State.deviceReset, State.port, resetPortUnit] using emptyLookaside_wellKept
  · simp [State.deviceReset, State.toTable, resetLinks] at ht

theorem State.takeHeldReset_follows (s : State) (p : PortId) : s.Follows (s.takeHeldReset p) := by
  unfold State.takeHeldReset
  split
  · exact s.resetPort_follows p
  · exact .refl s

theorem execDeviceReset_follows {st : Straps} {s t : State} (h : execDeviceReset st s = .next t) : s.Follows t := by
  rw [← Host.Outcome.next.inj h]
  have reset : s.Follows (s.deviceReset st) := ⟨.reset st rfl, fun _ => s.deviceReset_unitsLegal st⟩
  have held := State.foldl_follows State.takeHeldReset State.takeHeldReset_follows allPorts (s.deviceReset st)
  exact (reset.trans held).trans (State.choose_follows _)

/-! ### Every command -/

theorem exec_follows {i : Instr} {s t : State} (h : exec i s = .next t) : s.Follows t := by
  cases i with
  | accessArrival p a => cases h; exact s.presentAccess_follows _ _
  | registerWrite p word value => cases h; exact s.presentAccess_follows _ _
  | acknowledge p => cases h; exact s.presentAccess_follows _ _
  | walk => exact execWalk_follows h
  | admitAnswer p => exact execAdmitAnswer_follows h
  | denyAnswer p => exact execDenyAnswer_follows h
  | noneAnswer p => exact execNoneAnswer_follows h
  | parkAnswer p => exact execParkAnswer_follows h
  | addition p => exact execAddition_follows h
  | subtraction sender => exact execSubtraction_follows h
  | acknowledgement p => exact execAcknowledgement_follows h
  | offlineNotice p => exact execOfflineNotice_follows h
  | onlineNotice p => exact execOnlineNotice_follows h
  | shootDown p => exact execShootDown_follows h
  | releaseNotice p => exact execReleaseNotice_follows h
  | retireNotice p => exact execRetireNotice_follows h
  | parkTimerExpiry p => exact execParkTimerExpiry_follows h
  | define => exact execDefine_follows h
  | amend => exact execAmend_follows h
  | enable => exact execEnable_follows h
  | hold => exact execHold_follows h
  | release => exact execRelease_follows h
  | retire => exact execRetire_follows h
  | setRights => exact execSetRights_follows h
  | queryWindow => exact execQueryWindow_follows h
  | portOnline issuer => exact execPortOnline_follows h
  | portOffline issuer => exact execPortOffline_follows h
  | fence issuer => exact execFence_follows h
  | unfence issuer => exact execUnfence_follows h
  | clearFault issuer => exact execClearFault_follows h
  | queryPort issuer => exact execQueryPort_follows h
  | setParam issuer => exact execSetParam_follows h
  | clearDeviceFault issuer => exact execClearDeviceFault_follows h
  | queryDevice issuer => exact execQueryDevice_follows h
  | resultTaken p number result => cases h; exact s.postResult_follows _ _ _
  | partAck lanes number => exact execPartAck_follows h
  | partErr number => exact execPartErr_follows h
  | partRty number => exact execPartRty_follows h
  | responseTimerExpiry => exact execResponseTimerExpiry_follows h
  | retryWaitExpiry => exact execRetryWaitExpiry_follows h
  | externalRequest => exact execExternalRequest_follows h
  | externalWithdraw => exact execExternalWithdraw_follows h
  | externalWriteAck addr size => exact execExternalWriteAck_follows (z := size) h
  | entryFinishedReport p => exact execEntryFinishedReport_follows h
  | portReset p => exact execPortReset_follows h
  | deviceReset straps => exact execDeviceReset_follows h
  | portResetRelease p => cases h; exact s.setResetInput_follows _ _

theorem State.tick_follows (s : State) : s.Follows s.tick :=
  .of_same (.same rfl) ⟨rfl, rfl, rfl, rfl, fun p => by simp [State.tick, State.tickTimers, State.port]⟩ rfl rfl

theorem step_follows {s t : State} (h : step s = .next t) : s.Follows t := by
  unfold step at h
  split at h
  · cases h
    exact s.tick_follows
  · rename_i rest _
    have popped : s.Follows { s with pending := rest } := .of_frame rfl rfl rfl rfl rfl
    exact popped.trans (exec_follows h)

/-! ### The laws -/

/-- Settles O53: a window that comes to match, or to match more, has passed the overlap check of R18 in that event. -/
theorem windowsKeepFromOverlapping : Obligations.WindowsKeepFromOverlapping :=
  fun _ _ hs h => (step_follows h).records.atMostOneMatch hs

/-- Settles O58: every change of a record keeps its body legal. -/
theorem recordsKeepLegal : Obligations.RecordsKeepLegal :=
  fun _ _ hs h => (step_follows h).records.recordsLegal hs

/-- Settles O59: every operation of the part keeps the laws of its units. -/
theorem unitsKeepLegal : Obligations.UnitsKeepLegal :=
  fun _ _ hs h => (step_follows h).units hs

end Sys2Proof.Machine
end

section
/-! What the table does with the messages it takes: walks answered from the records (R20 to R22), additions and
subtractions counted (R10, R11, R14). -/

namespace Sys2Proof.Machine

/-! ### The answer to a walk (R17, R20) -/

theorem State.matchFor_none {s : State} {p : PortId} {a : LocalAddr} (h : ∀ w, ¬ s.Matches p a w) :
    s.table.matchFor p a = none :=
  List.find?_eq_none.2 fun w _ hw => h w ((WindowRecord.matchesAccess_iff s p a w).1 hw)

/-- The one window that matches is the one that the table finds (R17, R18). -/
theorem State.matchFor_only {s : State} {p : PortId} {a : LocalAddr} {w : WindowId} (h : s.Matches p a w)
    (only : ∀ v, s.Matches p a v → v = w) : s.table.matchFor p a = some w := by
  have found : (s.table.matchFor p a).isSome :=
    List.find?_isSome.2 ⟨w, List.mem_finRange w, (WindowRecord.matchesAccess_iff s p a w).2 h⟩
  obtain ⟨v, hv⟩ := Option.isSome_iff_exists.1 found
  have matching : (s.record v).matchesAccess p a = true :=
    List.find?_some (p := fun w => (s.record w).matchesAccess p a) hv
  rw [hv, only v ((WindowRecord.matchesAccess_iff s p a v).1 matching)]

theorem Table.answerWalk_none {t : Table} {p : PortId} {h : AccessHead} (hm : t.matchFor p h.addr = none) :
    t.answerWalk p h = .noWindow := by
  simp [Table.answerWalk, hm]

/-- The answer from the record of the window that matches: parked, denied with the first failing check, or admitted. -/
theorem State.answerWalk_match {s : State} {p : PortId} {h : AccessHead} {w : WindowId} {b : WindowBody}
    (hm : s.table.matchFor p h.addr = some w) (hb : (s.record w).body = some b) :
    (b.phase = .held → s.table.answerWalk p h = .park w) ∧
    (b.phase = .live → ∀ k, firstFailure b.terms (b.rights.get p) h = some k →
      s.table.answerWalk p h = .denied (copyOf w (s.record w).generation b p) k) ∧
    (b.phase = .live → firstFailure b.terms (b.rights.get p) h = none →
      s.table.answerWalk p h = .admitted (copyOf w (s.record w).generation b p)) := by
  have hb' : (s.table.records.get w).body = some b := hb
  refine ⟨fun hp => ?_, fun hp k hk => ?_, fun hp hk => ?_⟩
  · simp [Table.answerWalk, hm, hb', hp]
  · simp only [Table.answerWalk, hm, hb', hp, checkFault_eq, hk]
    rfl
  · simp only [Table.answerWalk, hm, hb', hp, checkFault_eq, hk]
    rfl

/-- The count of an answer changes only the records. -/
theorem State.countAnswer_eq (s : State) (m : TableMessage) :
    s.countAnswer m = { s with table := { s.table with records := (s.countAnswer m).table.records } } := by
  unfold State.countAnswer
  split <;> rfl

/-- The taking of a walk changes the channel of its port, the walks that wait, and their order. -/
theorem State.walkTaken_eq (s : State) (p : PortId) :
    s.walkTaken p = { s with
      links := { s.links with toTable := (s.walkTaken p).links.toTable }
      table := { s.table with
        walks := (s.walkTaken p).table.walks, walkOrder := servedOrder s.table.walkOrder p } } := by
  apply State.eq_of_blocks
  · simp [State.walkTaken]
  · apply Links.eq_of_fields <;> simp [State.walkTaken]
  · apply Table.eq_of_fields <;> simp [State.walkTaken, moveToEnd_eq]
  all_goals simp [State.walkTaken]

/-- What the port of a walk taken has sent is what stood behind the walk. -/
theorem State.walkTaken_sent (s : State) (p : PortId) :
    (s.walkTaken p).sentBy p = s.toTable p ∧
    ∀ q, q ≠ p → (s.walkTaken p).toTable q = s.toTable q ∧ (s.walkTaken p).waitingWalk q = s.waitingWalk q := by
  refine ⟨?_, fun q hq => ?_⟩
  · rw [State.walkTaken, State.settleWalk_sentBy]
    simp only [State.sentBy, State.setWaitingWalk_waitingWalk_at, if_true]
    rfl
  · let turned : State := { s with table := { s.table with walkOrder := moveToEnd p s.table.walkOrder } }
    obtain ⟨ht, hw⟩ := State.settleWalk_elsewhere (turned.setWaitingWalk p none) hq
    exact ⟨ht, hw.trans (by simp [hq, State.waitingWalk, turned])⟩

/-- The event in which the arbiter's walk is taken and answered m, with the records that its count leaves (R20 to
R22). -/
theorem State.walk_answered {s : State} {p : PortId} {h : AccessHead} {m : TableMessage}
    {records : Vector WindowRecord 64} (hc : s.ChoosesWalk p h) (hb : s.walkHeldBack p h = false)
    (hm : s.table.answerWalk p h = m) (hr : ((s.walkTaken p).countAnswer m).table.records = records) :
    ∃ t, exec .walk s = .next t ∧
      t = { s with
        links := { s.links with
          toTable := t.links.toTable
          toPort := vput s.links.toPort p (s.toPort p ++ [m]) }
        table := { s.table with
          records := records
          walks := t.table.walks
          walkOrder := servedOrder s.table.walkOrder p } } ∧
      t.sentBy p = s.toTable p ∧ ∀ q, q ≠ p → t.toTable q = s.toTable q ∧ t.waitingWalk q = s.waitingWalk q := by
  have he : exec .walk s = .next (s.takeWalk p h) := by
    simp only [exec, execWalk, State.chosenWalk_of hc, hb]
    rfl
  refine ⟨s.takeWalk p h, he, ?_⟩
  rw [State.takeWalk_eq, hm, State.countAnswer_eq, hr]
  refine ⟨?_, s.walkTaken_sent p⟩
  conv_lhs => rw [State.walkTaken_eq]
  rfl

/-- Settles O10: the arbiter's walk is the one taken (`State.walk_answered`), and its answer is read off the record
of the one window that matches (`State.answerWalk_match`). -/
theorem walkIsAnsweredFromTheRecords : Obligations.WalkIsAnsweredFromTheRecords := by
  intro s p h hc
  have records : (s.walkTaken p).table.records = s.table.records := by rw [State.walkTaken_eq]
  refine ⟨fun none => ?_, fun w b hw only hb => ?_⟩
  · have hm := Table.answerWalk_none (State.matchFor_none none)
    exact State.walk_answered hc (by simp [State.walkHeldBack, hm]) hm records
  · obtain ⟨parked, denied, admitted⟩ := State.answerWalk_match (State.matchFor_only hw only) hb
    refine ⟨fun hp => ?_, fun hp k hk => ?_, fun hp hk => ?_⟩
    · have hm := parked hp
      exact State.walk_answered hc (by simp [State.walkHeldBack, hm]) hm records
    · have hm := denied hp k hk
      exact State.walk_answered hc (by simp [State.walkHeldBack, hm]) hm records
    · have hm := admitted hp hk
      have heldBack : s.walkHeldBack p h = decide (23 ≤ b.counts.get b.epoch) := by
        simp only [State.walkHeldBack, hm]
        exact State.countFull_eq hb b.epoch
      refine ⟨fun hlt => State.walk_answered hc (by rw [heldBack]; simpa using hlt) hm ?_, fun hge => ?_⟩
      · have hb' : ((s.walkTaken p).record w).body = some b := by rw [State.record_congr records]; exact hb
        change ((s.walkTaken p).modifyCount w b.epoch (· + 1)).table.records = _
        rw [State.modifyCount_eq hb', State.setBody_table_records, records, State.record_congr records]
      · simp only [exec, execWalk, State.chosenWalk_of hc, heldBack, decide_eq_true hge, if_true]

end Sys2Proof.Machine
end

section
/-! Additions and subtractions as the table takes them: the count changed, the pending operation evaluated (R10, R11,
R14), and the access that waits offered (R34). -/

namespace Sys2Proof.Machine

/-- A count changed and the pending operation then evaluated: only the record and the slots that it posts to change. -/
theorem State.modifyCount_evaluate {s : State} {w : WindowId} {b : WindowBody} (hb : (s.record w).body = some b)
    (e : Epoch) (f : Nat → Nat) :
    ((s.modifyCount w e f).evaluate w).port =
      Units.evaluated s.port (s.record w).generation (b.withCount e (f (b.counts.get e))) ∧
    (s.modifyCount w e f).evaluate w = { s with
      ports := ((s.modifyCount w e f).evaluate w).ports
      table := { s.table with
        records := vput s.table.records w
          (evaluatedRecord (s.record w).generation (b.withCount e (f (b.counts.get e)))) } } := by
  rw [State.modifyCount_eq hb]
  obtain ⟨hport, htable, hlinks, hengine, hmonitor, hconfig, hpending⟩ :=
    s.setBody_evaluate w (b.withCount e (f (b.counts.get e)))
  exact ⟨hport, State.eq_of_blocks rfl hlinks htable hengine hmonitor hconfig hpending⟩

/-- A message of port p taken that changes a count (R10, R11): the count is changed and the operation evaluated. -/
theorem State.takeFromPort_counted {s : State} {p : PortId} {m : PortMessage} {rest : List PortMessage} {w : WindowId}
    {b : WindowBody} (hm : s.toTable p = m :: rest) (hb : (s.record w).body = some b) (e : Epoch) (f : Nat → Nat) :
    let t := ((s.takeFromPort p rest).modifyCount w e f).evaluate w
    let changed := b.withCount e (f (b.counts.get e))
    s.Takes t p m rest ∧ t.port = Units.evaluated s.port (s.record w).generation changed ∧
    t = { s with
      ports := t.ports
      links := { s.links with toTable := t.links.toTable }
      table := { s.table with
        records := vput s.table.records w (evaluatedRecord (s.record w).generation changed)
        walks := t.table.walks } } := by
  intro t changed
  have hrec : (s.takeFromPort p rest).record w = s.record w := State.record_congr (by simp) w
  have hports : (s.takeFromPort p rest).port = s.port := by funext q; simp [State.port]
  obtain ⟨hport, ht⟩ := State.modifyCount_evaluate (s := s.takeFromPort p rest) (hrec ▸ hb) e f
  rw [hrec] at hport ht
  rw [hports] at hport
  refine ⟨(State.takeFromPort_takes hm).congr (congrArg (·.links.toTable) ht) (congrArg (·.table.walks) ht), hport, ?_⟩
  apply State.eq_of_blocks
  · rfl
  · apply Links.eq_of_fields
    · rfl
    all_goals rw [congrArg State.links ht]; simp
  · rw [congrArg State.table ht]
    apply Table.eq_of_fields <;> simp [changed]
  · rw [congrArg State.engine ht]; simp
  · rw [congrArg State.monitor ht]; simp
  · rw [congrArg State.config ht]; simp
  · rw [congrArg State.pending ht]; simp

/-- Settles O17: the count falls and the pending operation is evaluated, whoever sent the subtraction. -/
theorem subtractionLowersTheCount : Obligations.SubtractionLowersTheCount := by
  intro s w e b hb
  refine ⟨fun p rest hm => ?_, fun rest hm => ?_⟩
  · have he : exec (.subtraction (.port p)) s = .next ((s.takeFromPort p rest).subtract w e) := by
      simp only [exec, execSubtraction, hm]
    exact ⟨_, he, State.takeFromPort_counted hm hb e (· - 1)⟩
  · let taken : State := { s with links := { s.links with engineToTable := rest } }
    have he : exec (.subtraction .engine) s = .next (taken.subtract w e) := by
      simp only [exec, execSubtraction, hm]
      rfl
    exact ⟨_, he, State.modifyCount_evaluate (s := taken) hb e (· - 1)⟩

/-! ### The access that waits for its addition (R34) -/

theorem State.modifyPort_units (s : State) (p : PortId) (f : PortUnit → PortUnit) :
    (s.modifyPort p f).port = Units.put s.port p (f (s.port p)) := by
  funext q
  simp [Units.put]

theorem State.offerAdded_other {s : State} {p : PortId} (h : ∀ a adm, (s.port p).current ≠ .waiting a adm false) :
    s.offerAdded p = s := by
  unfold State.offerAdded
  split
  · rename_i hc
    exact absurd hc (h _ _)
  · rfl

theorem State.offerAdded_waiting {s : State} {p : PortId} {a : Access} {adm : Admission}
    (h : (s.port p).current = .waiting a adm false) : s.offerAdded p = s.offer p a adm := by
  simp [State.offerAdded, h]

/-- A non-posted access waits for the bus that another holds (R34, R98). -/
theorem State.offer_waits {s : State} {p : PortId} {a : Access} {adm : Admission} (hn : adm.posted = false)
    (hh : s.engine.holder ≠ .free) :
    s.offer p a adm = s.modifyPort p fun u => { u with current := .waiting a adm true } := by
  rw [State.offer, hn]
  exact State.choose_busy (by simpa using hh)

/-- A posted write that fits enters the store and is answered, while another holds the bus (R120, R121). -/
theorem State.offer_fits {s : State} {p : PortId} {a : Access} {adm : Admission} (hp : adm.posted = true)
    (hr : s.HasRoom p) (hh : s.engine.holder ≠ .free) :
    s.offer p a adm =
      (s.modifyEngine fun g => { g with store := g.store ++ [entryOf p (s.port p).epoch a adm] }).modifyPort p fun u =>
        { u with current := .idle, answer := some (.done none), occupancyCopy := u.occupancyCopy + 1 } := by
  rw [State.offer, hp, (fits_iff s p).2 hr, State.accept_eq]
  exact State.choose_busy (by simpa using hh)

/-- A posted write that does not fit joins the waiting list (R122). -/
theorem State.offer_noRoom {s : State} {p : PortId} {a : Access} {adm : Admission} (hp : adm.posted = true)
    (hr : ¬ s.HasRoom p) :
    s.offer p a adm =
      (s.modifyPort p fun u => { u with current := .waiting a adm true }).modifyEngine fun g =>
        { g with waitingList := g.waitingList ++ [p] } := by
  have hf : s.fits p = false := by rw [← Bool.not_eq_true, fits_iff]; exact hr
  rw [State.offer, hp, hf]
  rfl

/-- The event in which an addition is taken where its count has room (R10, R14, R34). -/
theorem State.addition_taken {s : State} {p : PortId} {w : WindowId} {e : Epoch} {rest : List PortMessage}
    {b : WindowBody} (hm : s.toTable p = .addition w e :: rest) (hb : (s.record w).body = some b)
    (hc : b.counts.get e < 23) :
    exec (.addition p) s =
      .next ((((s.takeFromPort p rest).modifyCount w e (· + 1)).evaluate w).offerAdded p) := by
  have hf : s.countFull w e = false := by rw [State.countFull_eq hb]; simpa using hc
  simp only [exec, execAddition, hm, hf]
  rfl

/-- Settles O16: at its bound the count takes no addition (`State.countFull_eq`); below it the addition is counted, and
the access of its port that waits is offered by one of `State.offer_waits`, `State.offer_fits` and
`State.offer_noRoom`. -/
theorem additionCountsAndOffers : Obligations.AdditionCountsAndOffers := by
  refine ⟨fun s p w e rest b hm hb hc => ?_, ?_, ?_⟩
  · simp only [exec, execAddition, hm, State.countFull_eq hb, decide_eq_true hc, if_true]
  · intro s p w e rest b hm hb hc hnot g raised
    obtain ⟨htakes, hport, ht⟩ := State.takeFromPort_counted hm hb e (· + 1)
    refine ⟨_, State.addition_taken hm hb hc, ?_⟩
    rw [State.offerAdded_other (by simpa [hport] using hnot)]
    exact ⟨htakes, hport, ht⟩
  · intro s p w e rest b a adm hm hb hc hwait hbus g raised units
    obtain ⟨htakes, hport, ht⟩ := State.takeFromPort_counted hm hb e (· + 1)
    refine ⟨_, State.addition_taken hm hb hc, ?_⟩
    generalize ((s.takeFromPort p rest).modifyCount w e (· + 1)).evaluate w = u at htakes hport ht ⊢
    have hu : u.port = units := hport
    have hengine : u.engine = s.engine := by rw [ht]
    have hroom : u.HasRoom p ↔ s.HasRoom p := by simp only [State.HasRoom, hengine]
    have hepoch : (u.port p).epoch = (s.port p).epoch := by simp [hport]
    have offered : ∀ (ports : Vector PortUnit 6) (engine : Engine),
        s.Takes { u with ports := ports, engine := engine } p (.addition w e) rest ∧
        { u with ports := ports, engine := engine } = { s with
          ports := ports
          links := { s.links with toTable := u.links.toTable }
          table := { s.table with
            records := vput s.table.records w (evaluatedRecord g raised), walks := u.table.walks }
          engine := engine } := fun ports engine =>
      ⟨htakes.congr rfl rfl, congrArg (fun x : State => { x with ports := ports, engine := engine }) ht⟩
    have free : adm.posted = false ∨ s.HasRoom p → u.engine.holder ≠ .free := fun h => hengine ▸
      hbus.resolve_right fun ⟨h1, h2⟩ => h.elim (by simp [h1]) h2
    have waiting := u.modifyPort_units p fun x => { x with current := .waiting a adm true }
    rw [State.offerAdded_waiting (a := a) (adm := adm) (by simpa [hport] using hwait)]
    rcases hp : adm.posted with _ | _
    · rw [State.offer_waits hp (free (.inl hp))]
      exact ⟨(offered _ _).1, (offered _ _).2, fun _ => ⟨hengine, hu ▸ waiting⟩, nofun, nofun⟩
    · by_cases hr : s.HasRoom p
      · rw [State.offer_fits hp (hroom.2 hr) (free (.inr hr)), hepoch]
        exact ⟨(offered _ _).1, (offered _ _).2, nofun,
          fun _ _ => ⟨by simp [hengine], hu ▸ State.modifyPort_units _ p _⟩, fun _ h => absurd hr h⟩
      · rw [State.offer_noRoom hp (mt hroom.1 hr)]
        exact ⟨(offered _ _).1, (offered _ _).2, nofun, fun _ h => absurd h hr,
          fun _ _ => ⟨by simp [hengine], hu ▸ waiting⟩⟩

end Sys2Proof.Machine
end

section
/-! The device reset (R177): every block at its reset value, the port resets whose inputs are still asserted, and the
grant of an external master that requests (R118). -/

namespace Sys2Proof.Machine

/-! ### Port resets right after a device reset -/

/-- The part after a device reset in which the port resets of `done` have been taken, where their inputs are asserted:
the only trace of one is the epoch 1 (R164, R173). -/
def State.resetTaking (s : State) (st : Straps) (done : List PortId) : State :=
  { s.deviceReset st with
    ports := Vector.ofFn fun p =>
      { resetPortUnit st p (s.port p).resetInput with
        epoch := if (s.port p).resetInput = true ∧ p ∈ done then 1 else 0 } }

theorem State.resetTaking_port (s : State) (st : Straps) (done : List PortId) (p : PortId) :
    (s.resetTaking st done).port p =
      { resetPortUnit st p (s.port p).resetInput with
        epoch := if (s.port p).resetInput = true ∧ p ∈ done then 1 else 0 } := by
  simp [State.resetTaking, State.port]

theorem State.resetTaking_nil (s : State) (st : Straps) : s.resetTaking st [] = s.deviceReset st := by
  simp [State.resetTaking, State.deviceReset, resetPortUnit]

theorem PortState.afterReset_quiescing (x : PortState) : x.afterReset = .quiescing ↔ x = .quiescing := by
  cases x <;> simp [PortState.afterReset]

/-- A port reset that finds no access, no reservation and no request under way (R173 to R176). -/
theorem State.resetPort_idle {s : State} {p : PortId} (hc : (s.port p).current = .idle)
    (hs : (s.port p).state ≠ .quiescing) (hr : s.reservation p = none) (hq : s.requestOf p = none) :
    s.resetPort p = s.modifyPort p fun u => { u.afterReset with slot := u.slot.emptied } := by
  have abandoned : s.abandonCurrent p = s := by
    have same : vput s.ports p { s.port p with current := .idle } = s.ports := by
      rw [← hc]
      exact vput_self _ _
    simp [State.abandonCurrent, hc, State.modifyPort_eq, same]
  have unreserved : vput s.monitor.reservations p none = s.monitor.reservations := hr ▸ vput_self _ _
  have kept : ∀ t : State, (t.port p).state ≠ .quiescing → t.evaluateQuiesce p = t := fun t ht => by
    simp [State.evaluateQuiesce, PortUnit.quiesced, ht]
  have reset : ((s.modifyPort p PortUnit.afterReset).setReservation p none).clearSlot p =
      s.modifyPort p fun u => { u.afterReset with slot := u.slot.emptied } := by
    apply State.eq_of_blocks
    · simp [State.clearSlot, hq]
      rfl
    all_goals simp [State.clearSlot, State.setReservation, unreserved]
  rw [State.resetPort, abandoned]
  dsimp only
  rw [reset]
  exact kept _ (by simpa [PortUnit.afterReset, PortState.afterReset_quiescing] using hs)

/-- A port reset taken after a device reset leaves only its epoch (R173, R177). -/
theorem State.resetTaking_takeHeldReset (s : State) (st : Straps) {done : List PortId} {p : PortId} (hp : p ∉ done) :
    (s.resetTaking st done).takeHeldReset p = s.resetTaking st (done ++ [p]) := by
  have port := s.resetTaking_port st done
  have input : ((s.resetTaking st done).port p).resetInput = (s.port p).resetInput := by rw [port]; rfl
  have same : ∀ q, q ≠ p ∨ (s.port p).resetInput = false →
      (s.resetTaking st (done ++ [p])).port q = (s.resetTaking st done).port q := by
    intro q hq
    rw [port, s.resetTaking_port]
    rcases hq with hq | hq
    · simp [hq]
    · by_cases hqp : q = p <;> simp [hqp, hq]
  unfold State.takeHeldReset
  rw [input]
  rcases hi : (s.port p).resetInput with _ | _
  · exact State.eq_of_blocks (State.ports_eq_of_port fun q => (same q (.inr hi)).symm) rfl rfl rfl rfl rfl rfl
  · have idle : (s.resetTaking st done).resetPort p = _ := State.resetPort_idle (by rw [port]; rfl)
      (by rw [port]; rcases h : strapOnline st p <;> simp [resetPortUnit, h])
      (by simp [State.reservation, State.resetTaking, State.deviceReset, resetMonitor])
      (by simp [State.requestOf, State.resetTaking, State.deviceReset, resetLinks])
    rw [if_pos rfl, idle]
    refine State.eq_of_blocks (State.ports_eq_of_port fun q => ?_) rfl rfl rfl rfl rfl rfl
    rw [State.modifyPort_port_at]
    split
    · rename_i hq
      subst hq
      rw [port, s.resetTaking_port]
      rcases h : strapOnline st q <;>
        simp [resetPortUnit, PortUnit.afterReset, PortUnit.emptyFault, PortState.afterReset, Slot.emptied, resetSlot,
          hi, hp, h, vfill]
    · rename_i hq
      exact (same q (.inl hq)).symm

theorem State.resetTaking_foldl (s : State) (st : Straps) : ∀ (l done : List PortId), (done ++ l).Nodup →
    l.foldl State.takeHeldReset (s.resetTaking st done) = s.resetTaking st (done ++ l)
  | [], done, _ => by simp
  | p :: l, done, h => by
    have hp : p ∉ done := fun hd => (List.disjoint_of_nodup_append h) hd (List.mem_cons_self ..)
    have ih := s.resetTaking_foldl st l (done ++ [p]) (by simpa using h)
    rw [List.foldl_cons, s.resetTaking_takeHeldReset st hp, ih, List.append_assoc]
    rfl

theorem State.deviceReset_taken (s : State) (st : Straps) :
    allPorts.foldl State.takeHeldReset (s.deviceReset st) = s.resetTaking st allPorts := by
  rw [← State.resetTaking_nil]
  exact s.resetTaking_foldl st allPorts [] (by decide)

/-! ### The arbiter's choice after a device reset -/

/-- After a device reset nothing but the external master can ask for the bus (R95, R118). -/
theorem State.resetTaking_choose (s : State) (st : Straps) (done : List PortId) :
    (s.resetTaking st done).choose = { s.resetTaking st done with
      engine := { (s.resetTaking st done).engine with
        holder := if s.engine.extRequest then .external else .free
        extGrant := s.engine.extRequest } } := by
  rcases he : s.engine.extRequest with _ | _
  · have none_asks : ∀ q, ¬ (s.resetTaking st done).HasCandidate q := by
      rintro q (⟨e, hm, -⟩ | ⟨a, adm, ho, -⟩)
      · simp [State.resetTaking, State.deviceReset, resetEngine] at hm
      · simp [State.resetTaking_port, resetPortUnit] at ho
    have unasked : (s.resetTaking st done).engine.extRequest = false := he
    rw [State.choose_idle rfl unasked none_asks]
    simp only [State.resetTaking, State.deviceReset, resetEngine, Bool.false_eq_true, if_false]
  · have free : (s.resetTaking st done).engine.holder = .free := rfl
    have asked : (s.resetTaking st done).engine.extRequest = true := he
    rw [State.choose_external free asked]
    rfl

/-! ### The reset values, in the manual's words -/

theorem strapOnline_eq (st : Straps) (p : PortId) :
    strapOnline st p = (#v[true, st.onl1, st.onl2, st.onl3, st.onl4, st.onl5] : Vector Bool 6).get p := by
  fin_cases p <;> rfl

theorem strapSupervisor_eq (st : Straps) (p : PortId) :
    strapSupervisor st p = (#v[true, st.sup1, st.sup2, st.sup3, st.sup4, st.sup5] : Vector Bool 6).get p := by
  fin_cases p <;> rfl

theorem bootWidth_eq (st : Straps) :
    bootWidth st = if st.bw1 then .w32 else if st.bw0 then .w16 else .w8 := by
  unfold bootWidth
  rcases st.bw1 with _ | _ <;> rcases st.bw0 with _ | _ <;> rfl

theorem bootRights_eq : bootRights = #v[.readWrite, .noRight, .noRight, .noRight, .noRight, .noRight] := by decide

/-- Settles O50: the port resets taken after the device reset leave only epochs (`State.deviceReset_taken`), and the
choice then grants at most the external master (`State.resetTaking_choose`). -/
theorem deviceResetSetsEveryBlock : Obligations.DeviceResetSetsEveryBlock := by
  intro s st online supervisors width
  have he : exec (.deviceReset st) s = .next (s.resetTaking st allPorts).choose := by
    rw [← s.deviceReset_taken]
    rfl
  refine ⟨_, he, ?_⟩
  rw [State.resetTaking_choose]
  refine ⟨fun p => ?_, fun w => ?_, fun p => ?_, fun p => ?_, rfl, rfl, fun p => ?_, rfl, rfl, fun p => ?_, fun w => ?_,
    rfl, rfl⟩
  · change (s.resetTaking st allPorts).port p = _
    simp only [State.resetTaking_port, mem_allPorts, and_true, resetPortUnit, strapOnline_eq, strapSupervisor_eq]
    rfl
  · simp only [width, ← bootWidth_eq, ← bootRights_eq]
    simp [State.record, State.resetTaking, State.deviceReset, resetTable, resetRecords, bootRecord, bootTerms]
    rfl
  · simp [State.resetTaking, State.deviceReset, resetTable, strapOnline_eq, online]
  · simp [State.waitingWalk, State.resetTaking, State.deviceReset, resetTable]
  · simp [State.toTable, State.toPort, State.requestOf, State.resetTaking, State.deviceReset, resetLinks]
  · simp [State.reservation, State.resetTaking, State.deviceReset, resetMonitor, strapOnline_eq, online]
  · simp [State.resetTaking, State.deviceReset, resetMonitor]

end Sys2Proof.Machine
end

section
/-! What the port units' operations of Section 2 come to, said once: messages to the table, match faults, walks, and the
linked read's drop of a reservation. -/

namespace Sys2Proof.Machine

/-- A message sent changes the sender's channel, and the walk that waits where it reaches the arbiter (R46, R76). -/
theorem State.sendToTable_eq (s : State) (p : PortId) (m : PortMessage) :
    s.sendToTable p m = { s with
      links := { s.links with toTable := (s.sendToTable p m).links.toTable }
      table := { s.table with walks := (s.sendToTable p m).table.walks } } := by
  apply State.eq_of_blocks
  case hl => apply Links.eq_of_fields <;> simp
  case ht => apply Table.eq_of_fields <;> simp
  all_goals simp

theorem PortUnit.answered_idle {u : PortUnit} (h : u.current = .idle) (x : Answer) :
    u.answered x = { u with answer := some x } := by
  rw [PortUnit.answered, ← h]

/-- A match fault where the access's end completes no quiesce (R31). -/
theorem State.failMatch_keeps {s : State} {p : PortId} (h : s.KeepsState p) (a : Access) (k : FaultKind)
    (w : Option WindowId) :
    s.failMatch p a.toAccessHead k w =
      s.modifyPort p fun u => (u.answered .error).offered (matchFaultOf a k w) :=
  State.endCurrent_keeps .error (some (matchFaultOf a k w)) h

/-- A walk waits unsent while the stale-walk flag is set (R37). -/
theorem State.startWalk_stale {s : State} {p : PortId} (h : (s.port p).staleWalk = true) (a : Access) :
    s.startWalk p a = s.modifyPort p fun u => { u with current := .walking a false } := by
  simp [State.startWalk, h]

theorem State.startWalk_clear {s : State} {p : PortId} (h : (s.port p).staleWalk = false) (a : Access) :
    s.startWalk p a =
      (s.modifyPort p fun u => { u with current := .walking a true }).sendToTable p (.walk a.toAccessHead) := by
  simp [State.startWalk, h]

/-- The admission of an access and the reservation of its port (R136). -/
theorem State.dropForLinkedRead_eq (s : State) (p : PortId) (a : Access) :
    s.dropForLinkedRead p a.toAccessHead = { s with
      monitor := { s.monitor with
        reservations :=
          if a.kind = .linkedRead then vput s.monitor.reservations p none else s.monitor.reservations } } := by
  unfold State.dropForLinkedRead
  by_cases h : a.kind = .linkedRead
  · simp only [h, beq_self_eq_true, if_true]
    rfl
  · simp [h]

end Sys2Proof.Machine
end

section
/-! Accesses as they arrive at a port (2.2 to 2.5): refused by the port state, failed by the ordered checks, admitted by a
hit or sent to walk by a miss. -/

namespace Sys2Proof.Machine

/-! ### The arrival -/

/-- The state in which port p looks at an access that has just arrived: it has given no answer yet (R26). -/
def State.unanswered (s : State) (p : PortId) : State := s.modifyPort p fun u => { u with answer := none }

@[simp] theorem State.unanswered_port (s : State) (p : PortId) :
    (s.unanswered p).port p = { s.port p with answer := none } := by
  simp [State.unanswered]

/-- The unit of the port decides alone what becomes of it after the arrival. -/
theorem State.unanswered_modifyPort (s : State) (p : PortId) (f : PortUnit → PortUnit) :
    (s.unanswered p).modifyPort p f = { s with ports := vput s.ports p (f { s.port p with answer := none }) } := by
  rw [State.unanswered, State.modifyPort_modifyPort, State.modifyPort_eq]

theorem State.unanswered_answer (s : State) (p : PortId) (x : Answer) :
    (s.unanswered p).answer p x = { s with ports := vput s.ports p { s.port p with answer := some x } } :=
  s.unanswered_modifyPort p fun u => { u with answer := some x }

/-- An access is taken in stage IDLE (R27). -/
theorem State.presentAccess_idle {s : State} {p : PortId} (h : (s.port p).current = .idle) (a : Access) :
    s.presentAccess p a = (s.unanswered p).arrive p a := by
  rw [State.presentAccess, h]
  rfl

/-! ### Refused by the port state (R28, R173) -/

/-- What refuses an access at its arrival: the reset input or the port state. -/
def PortUnit.Refuses (u : PortUnit) (a : Access) : Prop :=
  u.resetInput = true ∨ u.state = .offline ∨ ((u.state = .fenced ∨ u.state = .quiescing) ∧ ¬ a.IsApertureWord)

theorem State.arrive_refused {s : State} {p : PortId} {a : Access} (h : (s.port p).Refuses a) :
    s.arrive p a = s.answer p .error := by
  have noWord : ¬ a.IsApertureWord → a.toAccessHead.isApertureWord = false := fun hw => by
    rw [← Bool.not_eq_true, isApertureWord_iff]
    exact hw
  unfold State.arrive
  rcases h with hr | ho | ⟨hf | hq, hw⟩
  · rw [hr]
    rfl
  · rw [ho]
    exact ite_self _
  · rw [hf, noWord hw]
    exact ite_self _
  · rw [hq, noWord hw]
    exact ite_self _

theorem State.presentAccess_refused {s : State} {p : PortId} {a : Access} (hi : (s.port p).current = .idle)
    (h : (s.port p).Refuses a) :
    s.presentAccess p a = { s with ports := vput s.ports p { s.port p with answer := some .error } } := by
  have refuses : ((s.unanswered p).port p).Refuses a := by rw [State.unanswered_port]; exact h
  rw [State.presentAccess_idle hi, State.arrive_refused refuses, State.unanswered_answer]

/-- Settles O4: REGISTER_WRITE and ACKNOWLEDGE are arrivals too, and every refused arrival is answered ERROR
(`State.presentAccess_refused`). -/
theorem refusedAtArrival : Obligations.RefusedAtArrival := by
  intro s p hi refused
  have unreached : ∀ a : Access, (s.port p).resetInput = true ∨ (s.port p).state = .offline →
      s.presentAccess p a = refused := fun a h =>
    State.presentAccess_refused hi (h.imp_right .inl)
  exact ⟨fun a h => congrArg _ (State.presentAccess_refused hi h),
    fun h => ⟨fun _ _ => congrArg _ (unreached _ h), congrArg _ (unreached _ h)⟩⟩

/-! ### The ordered checks (R29 to R33) -/

/-- An ACTIVE port with its reset input released puts the access to the ordered checks (R28). -/
theorem State.presentAccess_active {s : State} {p : PortId} (hr : s.Ready p) (ha : (s.port p).state = .active)
    (a : Access) : s.presentAccess p a = (s.unanswered p).checkArrival p a := by
  obtain ⟨hi, hn⟩ := hr
  rw [State.presentAccess_idle hi, State.arrive, State.unanswered_port, hn, ha]
  rfl

theorem State.checkArrival_misaligned {s : State} {p : PortId} {a : Access} (h : a.Misaligned) :
    s.checkArrival p a = s.failMatch p a.toAccessHead .align none := by
  have : a.toAccessHead.aligned = false := by rw [← Bool.not_eq_true, aligned_iff]; simpa using h
  simp [State.checkArrival, this]

/-- A linked kind in the aperture (R30). -/
theorem State.checkArrival_linked {s : State} {p : PortId} {a : Access} (h : ¬ a.Misaligned)
    (haddr : 0xFFFFF000 ≤ a.addr.toNat) (hk : a.kind = .linkedRead ∨ a.kind = .conditionalWrite) :
    s.checkArrival p a = s.answer p .error := by
  have linked : a.kind.isLinked = true := by rcases hk with hk | hk <;> rw [hk] <;> rfl
  simp only [State.checkArrival, (aligned_iff a).2 h, (inAperture_iff _).2 haddr, linked, Bool.not_true, if_true,
    Bool.false_eq_true, if_false]

/-- Below the aperture the lookaside decides (R33). -/
theorem State.checkArrival_lookUp {s : State} {p : PortId} {a : Access} (h : ¬ a.Misaligned)
    (haddr : a.addr.toNat < 0xFFFFF000) : s.checkArrival p a = s.lookUp p a := by
  have : inAperture a.addr = false := by rw [← Bool.not_eq_true, inAperture_iff]; omega
  simp only [State.checkArrival, (aligned_iff a).2 h, this, Bool.not_true, Bool.false_eq_true, if_false]

/-- A hit on a copy whose checks fail (R33). -/
theorem State.lookUp_fails {s : State} {p : PortId} {a : Access} {i : Fin 4} {c : Copy} {k : FaultKind}
    (hh : (s.port p).lookaside.Hits a.addr i c) (hf : firstFailure c.terms c.right a.toAccessHead = some k) :
    s.lookUp p a =
      (s.modifyPort p fun u => { u with lookaside := (s.port p).lookaside.recent i }).failMatch p a.toAccessHead k
        (some c.window) := by
  simp only [State.lookUp, Lookaside.hit_of_hits hh, State.hitEntry, checkFault_eq, hf, Lookaside.touch_eq]
  rfl

/-- A hit on a copy whose checks pass (R33, R34). -/
theorem State.lookUp_admits {s : State} {p : PortId} {a : Access} {i : Fin 4} {c : Copy}
    (hh : (s.port p).lookaside.Hits a.addr i c) (hf : firstFailure c.terms c.right a.toAccessHead = none) :
    s.lookUp p a =
      (State.dropForLinkedRead
        (s.modifyPort p fun u =>
          { u with lookaside := (s.port p).lookaside.recent i, current := .waiting a (admissionOf c a) false })
        p a.toAccessHead).sendToTable p (.addition c.window c.epoch) := by
  simp only [State.lookUp, Lookaside.hit_of_hits hh, State.hitEntry, checkFault_eq, hf, Lookaside.touch_eq,
    admission_eq, State.setLookaside_eq, State.setCurrent_eq, State.modifyPort_modifyPort]

theorem State.lookUp_misses {s : State} {p : PortId} {a : Access} (h : (s.port p).lookaside.Misses a.addr) :
    s.lookUp p a = s.startWalk p a := by
  simp [State.lookUp, Lookaside.hit_of_misses h]

/-- Settles O5: each failed check by its lemma of `State.checkArrival` or `State.lookUp`; an ACTIVE port is in no quiesce,
so that a match fault is the change of one unit (`State.failMatch_keeps`). -/
theorem matchFaultAtArrival : Obligations.MatchFaultAtArrival := by
  intro s p a hr ha error
  have arrival : exec (.accessArrival p a) s = .next ((s.unanswered p).checkArrival p a) :=
    congrArg _ (State.presentAccess_active hr ha a)
  have keeps : (s.unanswered p).KeepsState p := .inl (by simp [ha])
  rw [arrival]
  refine ⟨fun hm => ?_, fun hm haddr hk => ?_, ?_⟩
  · rw [State.checkArrival_misaligned hm, State.failMatch_keeps keeps, State.unanswered_modifyPort,
      PortUnit.answered_idle (by exact hr.1)]
  · rw [State.checkArrival_linked hm haddr hk, State.unanswered_answer]
  · intro hm haddr i c k hh hf hit
    have hits : ((s.unanswered p).port p).lookaside.Hits a.addr i c := by rw [State.unanswered_port]; exact hh
    rw [State.checkArrival_lookUp hm haddr, State.lookUp_fails hits hf, State.failMatch_keeps (.inl (by simp [ha])),
      State.modifyPort_modifyPort, State.unanswered_modifyPort, PortUnit.answered_idle (by exact hr.1),
      State.unanswered_port]

/-! ### Admission by a hit, and walks (R34, R37) -/

/-- Settles O6: the unit and the monitor change first, and the addition or the walk is then sent
(`State.sendToTable_sends`, `State.sendToTable_eq`). -/
theorem hitAdmitsAndMissWalks : Obligations.HitAdmitsAndMissWalks := by
  have looked : ∀ (s : State) (p : PortId) (a : Access), s.Ready p → (s.port p).state = .active → ¬ a.Misaligned →
      a.addr.toNat < 0xFFFFF000 → exec (.accessArrival p a) s = .next ((s.unanswered p).lookUp p a) :=
    fun s p a hr ha hm haddr =>
      congrArg _ ((State.presentAccess_active hr ha a).trans (State.checkArrival_lookUp hm haddr))
  constructor
  · intro s p a i c hr ha hm haddr hh hf
    have hits : ((s.unanswered p).port p).lookaside.Hits a.addr i c := by rw [State.unanswered_port]; exact hh
    refine ⟨_, looked s p a hr ha hm haddr, ?_⟩
    rw [State.lookUp_admits hits hf, State.unanswered_modifyPort, State.dropForLinkedRead_eq, State.unanswered_port]
    exact ⟨(State.sendToTable_sends _ p _).congr_left rfl rfl, State.sendToTable_eq _ p _⟩
  · intro s p a hr ha hm haddr hmiss
    have misses : ((s.unanswered p).port p).lookaside.Misses a.addr := by rw [State.unanswered_port]; exact hmiss
    rw [looked s p a hr ha hm haddr, State.lookUp_misses misses]
    refine ⟨fun hw => ?_, fun hw => ?_⟩
    · refine ⟨_, rfl, ?_⟩
      rw [State.startWalk_clear (by simpa using hw), State.unanswered_modifyPort]
      exact ⟨(State.sendToTable_sends _ p _).congr_left rfl rfl, State.sendToTable_eq _ p _⟩
    · rw [State.startWalk_stale (by simpa using hw), State.unanswered_modifyPort]

end Sys2Proof.Machine
end

section
/-! The walk answers as a port takes them (R35, R38 to R41, R45): the copy installed, and the access offered, failed,
parked, or its answer discarded. -/

namespace Sys2Proof.Machine

/-! ### The answer that stands first on the channel (R76) -/

section
variable {s : State} {p : PortId} {rest : List TableMessage}

theorem exec_admitAnswer {c : Copy} (h : s.toPort p = .admitted c :: rest) :
    exec (.admitAnswer p) s = .next ((s.setToPort p rest).takeAdmitted p c) := by
  simp only [exec, execAdmitAnswer, h]

theorem exec_denyAnswer {c : Copy} {k : FaultKind} (h : s.toPort p = .denied c k :: rest) :
    exec (.denyAnswer p) s = .next ((s.setToPort p rest).takeDenied p c k) := by
  simp only [exec, execDenyAnswer, h]

theorem exec_noneAnswer (h : s.toPort p = .noWindow :: rest) :
    exec (.noneAnswer p) s = .next ((s.setToPort p rest).takeNoWindow p) := by
  simp only [exec, execNoneAnswer, h]

theorem exec_parkAnswer {w : WindowId} (h : s.toPort p = .park w :: rest) :
    exec (.parkAnswer p) s = .next ((s.setToPort p rest).takePark p w) := by
  simp only [exec, execParkAnswer, h]

end

/-! ### The replacement rule (R35) -/

/-- A copy placed on entry i, which becomes the most recently used. -/
def Lookaside.placed (l : Lookaside) (c : Copy) (i : Fin 4) : Lookaside :=
  { entries := vput l.entries i (some c), order := i :: l.order.filter fun j => j ≠ i }

theorem Lookaside.install_placed (l : Lookaside) (c : Copy) : l.install c = l.placed c (l.placeFor c.window) := by
  simp only [Lookaside.install, Lookaside.touch_eq, Lookaside.recent, Lookaside.placed]

theorem Lookaside.find_holds_none {l : Lookaside} {w : WindowId}
    (h : ∀ i d, l.entries.get i = some d → d.window ≠ w) : entryNumbers.find? (l.holds w) = none := by
  rw [List.find?_eq_none]
  intro i _ hi
  obtain ⟨d, hd, hw⟩ := (l.holds_iff w i).1 hi
  exact h i d hd hw

/-- The lowest-numbered entry with a property is the one that a search finds. -/
theorem find_entryNumbers {f : Fin 4 → Bool} {i : Fin 4} (h : f i = true) (hb : ∀ j, j < i → f j = false) :
    entryNumbers.find? f = some i := by
  have around : ∀ i : Fin 4, entryNumbers =
      entryNumbers.filter (fun j => j < i) ++ i :: entryNumbers.filter (fun j => i < j) := by decide
  rw [List.find?_eq_some_iff_append]
  refine ⟨h, _, _, around i, fun j hj => ?_⟩
  rw [hb j (by simpa using (List.mem_filter.1 hj).2)]
  rfl

theorem Lookaside.placeFor_invalid {l : Lookaside} {w : WindowId} {i : Fin 4}
    (h : ∀ i d, l.entries.get i = some d → d.window ≠ w) (hi : l.entries.get i = none)
    (hb : ∀ j, j < i → l.entries.get j ≠ none) : l.placeFor w = i := by
  have found : entryNumbers.find? (fun i => (l.entries.get i).isNone) = some i :=
    find_entryNumbers (by simp [hi]) fun j hj =>
      Option.isNone_eq_false_iff.2 (Option.isSome_iff_ne_none.2 (hb j hj))
  simp only [Lookaside.placeFor, Lookaside.find_holds_none h, found]

/-- With no invalid entry the least recently used one makes room. -/
theorem Lookaside.placeFor_last {l : Lookaside} {w : WindowId} {i : Fin 4} {before : List (Fin 4)}
    (h : ∀ i d, l.entries.get i = some d → d.window ≠ w) (hv : ∀ i, l.entries.get i ≠ none)
    (ho : l.order = before ++ [i]) : l.placeFor w = i := by
  have full : entryNumbers.find? (fun i => (l.entries.get i).isNone) = none := by
    rw [List.find?_eq_none]
    intro j _
    simpa using hv j
  simp [Lookaside.placeFor, Lookaside.find_holds_none h, full, ho]

/-- Settles O12: the place of the copy in the three cases of R35. -/
theorem copyIsPlacedByTheReplacementRule : Obligations.CopyIsPlacedByTheReplacementRule := by
  intro s p c hk l placed
  have at_place : ∀ i, l.placeFor c.window = i → placed i := fun i hi =>
    ⟨by rw [Lookaside.install_placed, hi]; rfl, hk.install c⟩
  refine ⟨fun i d hi hd => ?_, fun hn => ⟨fun i hi hb => ?_, fun hv i before ho => ?_⟩⟩
  · exact at_place i (hd ▸ hk.placeFor_held hi)
  · exact at_place i (Lookaside.placeFor_invalid hn hi hb)
  · exact at_place i (Lookaside.placeFor_last hn hv ho)

/-! ### An ADMIT answer (R38) -/

/-- An ADMIT answer for a walking access: the copy is installed and the access offered under its terms (R38, R136). -/
theorem State.takeAdmitted_walking {s : State} {p : PortId} {a : Access} (hw : (s.port p).current = .walking a true)
    (hf : (s.port p).staleWalk = false) (c : Copy) :
    s.takeAdmitted p c =
      (State.dropForLinkedRead
        (s.modifyPort p fun u =>
          { u with lookaside := (s.port p).lookaside.install c, current := .waiting a (admissionOf c a) false })
        p a.toAccessHead).offer p a (admissionOf c a) := by
  simp only [State.takeAdmitted, hf, hw, Bool.false_eq_true, if_false, admission_eq, State.setLookaside_eq,
    State.setCurrent_eq, State.modifyPort_modifyPort]

theorem State.modifyEngine_modifyPort (s : State) (p : PortId) (g : Engine → Engine) (f : PortUnit → PortUnit) :
    (s.modifyEngine g).modifyPort p f = (s.modifyPort p f).modifyEngine g := rfl

/-- Settles O11: the access is offered by one of `State.offer_waits`, `State.offer_fits` and `State.offer_noRoom`, from
the state in which its copy is installed. -/
theorem admitAnswerOffersTheAccess : Obligations.AdmitAnswerOffersTheAccess := by
  intro s p c rest a hm hw hf adm hbus u base
  let x : State := { base with ports := vput s.ports p { u with current := .waiting a adm false } }
  have taken : exec (.admitAnswer p) s = .next (x.offer p a adm) := by
    rw [exec_admitAnswer hm, State.takeAdmitted_walking (s := s.setToPort p rest) hw hf, State.dropForLinkedRead_eq]
    rfl
  have unit : x.port p = { u with current := .waiting a adm false } := by simp [x, State.port]
  have change : ∀ f : PortUnit → PortUnit, x.modifyPort p f =
      { base with ports := vput s.ports p (f { u with current := .waiting a adm false }) } := fun f => by
    simp [State.modifyPort_eq, unit, x]
  have free : adm.posted = false ∨ s.HasRoom p → x.engine.holder ≠ .free := fun h =>
    hbus.resolve_right fun ⟨h1, h2⟩ => h.elim (by simp [h1]) h2
  rw [taken]
  refine ⟨fun hp => ?_, fun hp hr => ?_, fun hp hr => ?_⟩
  · rw [State.offer_waits (s := x) hp (free (.inl hp)), change]
  · rw [State.offer_fits (s := x) hp hr (free (.inr hr)), State.modifyEngine_modifyPort, change, unit]
    rfl
  · rw [State.offer_noRoom (s := x) hp hr, change]
    rfl

/-! ### DENY, NONE and PARK answers (R39 to R41) -/

section
variable {s : State} {p : PortId} {a : Access} (hw : (s.port p).current = .walking a true)
  (hf : (s.port p).staleWalk = false)
include hw hf

/-- A DENY answer for a walking access (R39). -/
theorem State.takeDenied_walking (c : Copy) (k : FaultKind) :
    s.takeDenied p c k =
      (s.modifyPort p fun u => { u with lookaside := (s.port p).lookaside.install c }).failMatch p a.toAccessHead k
        (some c.window) := by
  simp [State.takeDenied, hf, hw]

/-- A NONE answer for a walking access (R40). -/
theorem State.takeNoWindow_walking : s.takeNoWindow p = s.failMatch p a.toAccessHead .noWindow none := by
  simp [State.takeNoWindow, hf, hw]

/-- A PARK answer for a walking access (R41). -/
theorem State.takePark_walking (w : WindowId) :
    s.takePark p w = s.modifyPort p fun u =>
      { u with current := .parked a w { limit := s.config.parkLimit, ticks := 0 } } := by
  simp [State.takePark, State.park, hf, hw]

end

/-- Settles O13: a DENY or NONE answer ends the access by a match fault that completes no quiesce
(`State.failMatch_keeps`). -/
theorem refusingAndParkingAnswers : Obligations.RefusingAndParkingAnswers := by
  intro s p rest a hw hf leaves
  let x : State := s.setToPort p rest
  refine ⟨fun c k hm hk => ?_, fun hm hk => ?_, fun w hm => ?_⟩
  · have keeps : (x.modifyPort p fun u => { u with lookaside := (x.port p).lookaside.install c }).KeepsState p := by
      simpa [State.KeepsState, x] using hk
    rw [exec_denyAnswer hm, State.takeDenied_walking (s := x) hw hf, State.failMatch_keeps keeps,
      State.modifyPort_modifyPort]
    rfl
  · rw [exec_noneAnswer hm, State.takeNoWindow_walking (s := x) hw hf, State.failMatch_keeps (s := x) hk]
    rfl
  · rw [exec_parkAnswer hm, State.takePark_walking (s := x) hw hf]
    rfl

/-! ### A discarded answer (R45) -/

/-- The walk that a port holds unsent behind its stale-walk flag (R37). -/
def CurrentAccess.heldWalk : CurrentAccess → List PortMessage
  | .walking a false => [.walk a.toAccessHead]
  | _ => []

/-- The current access once its walk is no longer held. -/
def CurrentAccess.unheld : CurrentAccess → CurrentAccess
  | .walking a false => .walking a true
  | other => other

/-- The port unit once the answer that its stale-walk flag stood for was taken (R45). -/
def PortUnit.unstale (u : PortUnit) : PortUnit := { u with staleWalk := false, current := u.current.unheld }

section
variable {c : CurrentAccess} (h : ∀ a, c ≠ .walking a false)
include h

theorem CurrentAccess.heldWalk_none : c.heldWalk = [] := by
  unfold CurrentAccess.heldWalk
  split
  · exact absurd rfl (h _)
  · rfl

theorem CurrentAccess.unheld_self : c.unheld = c := by
  unfold CurrentAccess.unheld
  split
  · exact absurd rfl (h _)
  · rfl

end

theorem State.discardAnswer_held {s : State} {p : PortId} {a : Access} (h : (s.port p).current = .walking a false) :
    s.discardAnswer p = (s.modifyPort p PortUnit.unstale).sendToTable p (.walk a.toAccessHead) := by
  have unit : PortUnit.unstale (s.port p) = { s.port p with staleWalk := false, current := .walking a true } := by
    rw [PortUnit.unstale, h]
    rfl
  simp only [State.discardAnswer, h, State.setStaleWalk_eq, State.setCurrent_eq, State.modifyPort_modifyPort]
  rw [State.modifyPort_eq, State.modifyPort_eq, unit]

theorem State.discardAnswer_free {s : State} {p : PortId} (h : ∀ a, (s.port p).current ≠ .walking a false) :
    s.discardAnswer p = s.modifyPort p PortUnit.unstale := by
  have unit : PortUnit.unstale (s.port p) = { s.port p with staleWalk := false } := by
    rw [PortUnit.unstale, CurrentAccess.unheld_self h]
  rw [State.modifyPort_eq, unit]
  unfold State.discardAnswer
  dsimp only
  split
  · rename_i hc
    exact absurd hc (h _)
  · rfl

/-- A discarded answer: the flag clears, and the walk held behind it is sent (R45). -/
theorem State.discardAnswer_spec (s : State) (p : PortId) :
    s.Sends (s.discardAnswer p) p (s.port p).current.heldWalk ∧
    s.discardAnswer p = { s with
      ports := vput s.ports p (s.port p).unstale
      links := { s.links with toTable := (s.discardAnswer p).links.toTable }
      table := { s.table with walks := (s.discardAnswer p).table.walks } } := by
  by_cases h : ∃ a, (s.port p).current = .walking a false
  · obtain ⟨a, h⟩ := h
    rw [State.discardAnswer_held h, h]
    exact ⟨(State.sendToTable_sends _ p _).congr_left rfl rfl, State.sendToTable_eq _ p _⟩
  · rw [not_exists] at h
    rw [State.discardAnswer_free h, CurrentAccess.heldWalk_none h]
    exact ⟨⟨(List.append_nil _).symm, fun _ _ => ⟨rfl, rfl⟩⟩, rfl⟩

/-! Whatever the answer, the stale-walk flag discards it. -/

section
variable {s : State} {p : PortId} (hf : (s.port p).staleWalk = true)
include hf

theorem State.takeAdmitted_stale (c : Copy) :
    s.takeAdmitted p c = (s.discardAnswer p).sendToTable p (.subtraction c.window c.epoch) := if_pos hf

theorem State.takeDenied_stale (c : Copy) (k : FaultKind) : s.takeDenied p c k = s.discardAnswer p := if_pos hf

theorem State.takeNoWindow_stale : s.takeNoWindow p = s.discardAnswer p := if_pos hf

theorem State.takePark_stale (w : WindowId) : s.takePark p w = s.discardAnswer p := if_pos hf

end

/-- Settles O14: every answer is discarded in the same way (`State.discardAnswer_spec`), and an ADMIT then subtracted. -/
theorem staleAnswerIsDiscarded : Obligations.StaleAnswerIsDiscarded := by
  intro s p m rest hm hf held sent discards
  let x : State := s.setToPort p rest
  have stale : (x.port p).staleWalk = true := hf
  obtain ⟨hsent, hx⟩ := x.discardAnswer_spec p
  have plain : ∀ i, exec i s = .next (x.discardAnswer p) → discards i [] := fun i hi =>
    ⟨_, hi, by rw [List.append_nil]; exact hsent, hx⟩
  refine ⟨fun c hc => ?_, fun c k hc => ?_, fun hc => ?_, fun w hc => ?_⟩
  · refine ⟨_, (exec_admitAnswer (hc ▸ hm)).trans (congrArg _ (State.takeAdmitted_stale stale c)),
      hsent.trans (State.sendToTable_sends _ p _), (State.sendToTable_eq _ p _).trans ?_⟩
    rw [hx]
    rfl
  · exact plain _ ((exec_denyAnswer (hc ▸ hm)).trans (congrArg _ (State.takeDenied_stale stale c k)))
  · exact plain _ ((exec_noneAnswer (hc ▸ hm)).trans (congrArg _ (State.takeNoWindow_stale stale)))
  · exact plain _ ((exec_parkAnswer (hc ▸ hm)).trans (congrArg _ (State.takePark_stale stale w)))

end Sys2Proof.Machine
end

section
/-! Parked accesses (R42, R43): walked again by a release notice, answered RETRY by a retire notice or the park timer. -/

namespace Sys2Proof.Machine

section
variable {s : State} {p : PortId} {w : WindowId}

theorem State.takeRelease_parked {a : Access} {x : Timer} (h : (s.port p).current = .parked a w x) :
    s.takeRelease p w = s.startWalk p a := by
  simp [State.takeRelease, h]

/-- A release notice that finds nothing parked on its window is ignored (R42). -/
theorem State.takeRelease_other (h : ∀ a x, (s.port p).current ≠ .parked a w x) : s.takeRelease p w = s := by
  unfold State.takeRelease
  split
  · rename_i a v x hc
    have other : v ≠ w := fun hv => h a x (hv ▸ hc)
    simp [other]
  · rfl

theorem State.takeRetire_parked {a : Access} {x : Timer} (h : (s.port p).current = .parked a w x) :
    s.takeRetire p w = s.endCurrent p .retry none := by
  simp [State.takeRetire, h]

/-- A retire notice that finds nothing parked on its window is ignored (R43). -/
theorem State.takeRetire_other (h : ∀ a x, (s.port p).current ≠ .parked a w x) : s.takeRetire p w = s := by
  unfold State.takeRetire
  split
  · rename_i a v x hc
    have other : v ≠ w := fun hv => h a x (hv ▸ hc)
    simp [other]
  · rfl

end

/-- An access answered RETRY where its end completes no quiesce (R43). -/
theorem State.endCurrent_retry {s : State} {p : PortId} (h : s.KeepsState p) :
    s.endCurrent p .retry none = s.modifyPort p fun u => u.answered .retry :=
  State.endCurrent_keeps .retry none h

/-- Settles O15: a parked access is walked again (`State.startWalk_clear`) or answered RETRY
(`State.endCurrent_retry`). -/
theorem parkEndsByNoticeOrTimer : Obligations.ParkEndsByNoticeOrTimer := by
  intro s p w rest leaves
  let x : State := s.setToPort p rest
  have same : x = leaves (s.port p) := by simp [x, leaves, State.setToPort, State.port]
  refine ⟨fun hm => ?_, fun hm => ?_, fun a v n k hp hlt hk => ?_⟩
  · have taken : exec (.releaseNotice p) s = .next (x.takeRelease p w) := by
      simp only [exec, execReleaseNotice, hm, x]
    rw [taken]
    refine ⟨fun a y hp hf => ⟨_, rfl, ?_⟩, fun hn => ?_⟩
    · rw [State.takeRelease_parked (s := x) hp, State.startWalk_clear (s := x) hf]
      exact ⟨(State.sendToTable_sends _ p _).congr_left rfl rfl, State.sendToTable_eq _ p _⟩
    · rw [State.takeRelease_other (s := x) hn, same]
  · have taken : exec (.retireNotice p) s = .next (x.takeRetire p w) := by
      simp only [exec, execRetireNotice, hm, x]
    rw [taken]
    refine ⟨fun a y hp hk => ?_, fun hn => ?_⟩
    · rw [State.takeRetire_parked (s := x) hp, State.endCurrent_retry (s := x) hk]
      rfl
    · rw [State.takeRetire_other (s := x) hn, same]
  · have expired : (s.port p).current.expired = true := by
      rw [hp]
      exact decide_eq_true hlt
    simp only [exec, execParkTimerExpiry, expired, if_true, State.endCurrent_retry hk]
    rfl

end Sys2Proof.Machine
end

section
/-! What the window requests share (Section 3): the conditions of a record, the request as the table takes and examines
it, and what it leaves of the channels to the ports, the records and the monitor. -/

namespace Sys2Proof.Machine

/-! ### The conditions of a record (R50) -/

section
variable {r : WindowRecord}

theorem WindowRecord.recordCondition_free_iff : r.recordCondition = .free ↔ r.body = none := by
  unfold WindowRecord.recordCondition
  rcases r.body with _ | b
  · simp
  · rcases hp : b.phase <;> simp [hp, ite_eq_iff]

variable {b : WindowBody} (hb : r.body = some b)
include hb

theorem WindowRecord.recordCondition_staged_iff : r.recordCondition = .staged ↔ b.phase = .staged := by
  unfold WindowRecord.recordCondition
  rcases hp : b.phase <;> simp [hb, hp, ite_eq_iff]

theorem WindowRecord.recordCondition_liveOpen_iff :
    r.recordCondition = .liveOpen ↔ b.phase = .live ∧ b.pendingOp = none ∧ b.shootSet = [] := by
  unfold WindowRecord.recordCondition
  rcases hp : b.phase <;> simp [hb, hp, ite_eq_iff]

theorem WindowRecord.recordCondition_heldSettled_iff :
    r.recordCondition = .heldSettled ↔ b.phase = .held ∧ ∃ q n, b.pendingOp = some (.hold q n true) := by
  unfold WindowRecord.recordCondition
  rcases hp : b.phase <;> simp [hb, hp, ite_eq_iff]

/-- A HELD window whose HOLD is known. -/
theorem WindowRecord.recordCondition_held {q : PortId} {n : RequestNumber} {settled : Bool} (hp : b.phase = .held)
    (ho : b.pendingOp = some (.hold q n settled)) :
    r.recordCondition = if settled then .heldSettled else .heldUnsettled := by
  unfold WindowRecord.recordCondition
  rcases settled <;> simp [hb, hp, ho]

end

/-! ### The examination (R49) -/

/-- What the table does with an accepted window request of each kind (3.3 to 3.9); requests of other kinds are not
examined in this way. -/
def State.carryOut (kind : RequestKind) (p : PortId) (c : Captured) (w : WindowId) (s : State) : State :=
  match kind with
  | .define => s.takeDefine p c w
  | .amend => s.takeAmend p c w
  | .enable => s.takeEnable p c w
  | .hold => s.takeHold p c w
  | .release => s.takeReleaseRequest p c w
  | .retire => s.takeRetireRequest p c w
  | .setRights => s.takeSetRights p c w
  | _ => s

section
variable {s : State} {p : PortId} {c : Captured} {kind : RequestKind} {act : WindowId → State → State}

theorem State.examineRequest_noSuch (h : 64 ≤ c.target) :
    s.examineRequest kind p c act = s.refuse p c .noSuch none := by
  simp [State.examineRequest, h]

variable {w : WindowId} (hw : c.target = w.val)
include hw

/-- Steps 2 to 4 for a request that names window w. -/
theorem State.examineRequest_target :
    s.examineRequest kind p c act =
      if (s.port p).role ≠ .supervisor then s.refuse p c .denied (some (s.record w).generation)
      else if c.any = false ∧ c.expected ≠ (s.record w).generation then
        s.refuse p c .stale (some (s.record w).generation)
      else
        ((s.record w).condition kind).elim (act w s) fun code =>
          s.refuse p c code (some (s.record w).generation) := by
  have hlt : c.target < 64 := hw ▸ w.isLt
  have hfin : (⟨c.target, hlt⟩ : WindowId) = w := Fin.ext hw
  simp only [State.examineRequest, hlt, dite_true, hfin, bne_iff_ne, Bool.and_eq_true, Bool.not_eq_true']
  rcases (s.record w).condition kind <;> rfl

end

/-- A request that may change window w is answered by the record's condition (R49, R50). -/
theorem State.examineRequest_mayChange {s : State} {p : PortId} {c : Captured} {w : WindowId} (h : s.MayChange p c w)
    (kind : RequestKind) (act : WindowId → State → State) :
    s.examineRequest kind p c act =
      ((s.record w).condition kind).elim (act w s) fun code =>
        s.refuse p c code (some (s.record w).generation) := by
  obtain ⟨hw, hrole, hgen⟩ := h
  have current : ¬ (c.any = false ∧ c.expected ≠ (s.record w).generation) := by
    rintro ⟨h1, h2⟩
    exact hgen.elim (by simp [h1]) h2
  rw [State.examineRequest_target hw, if_neg (not_not.2 hrole), if_neg current]

/-! ### The request as the table takes it (R21, R22, R186) -/

theorem State.takeTableRequest_eq (s : State) (p : PortId) :
    s.takeTableRequest p = { s with
      ports := (s.takeTableRequest p).ports
      links := { s.links with requests := s.requestsAfter p }
      table := { s.table with requestOrder := servedOrder s.table.requestOrder p } } := by
  rw [← moveToEnd_eq]
  rfl

section
variable {s : State} {i : PortId} {c : Captured} {kind : RequestKind} {command : Instr} {col : Nat}

/-- The taking changes neither the requester's role nor any record. -/
theorem State.MayChange.taken {w : WindowId} (h : s.MayChange i c w) : (s.takeTableRequest i).MayChange i c w := by
  obtain ⟨hw, hrole, hgen⟩ := h
  exact ⟨hw, by simpa [Units.told, Units.put] using hrole, hgen⟩

variable (hcol : windowRequests[col]? = some (kind, command)) (hc : s.ChoosesRequest i c kind)
include hcol hc

/-- Each window request is examined, and carried out where the examination accepts it. -/
theorem exec_windowRequest :
    exec command s = .next
      ((s.takeTableRequest i).examineRequest kind i c fun w t => t.carryOut kind i c w) := by
  have member : (kind, command) ∈ windowRequests := List.mem_of_getElem? hcol
  simp only [windowRequests, List.mem_cons, Prod.mk.injEq, List.not_mem_nil, or_false] at member
  rcases member with ⟨rfl, rfl⟩ | ⟨rfl, rfl⟩ | ⟨rfl, rfl⟩ | ⟨rfl, rfl⟩ | ⟨rfl, rfl⟩ | ⟨rfl, rfl⟩ | ⟨rfl, rfl⟩ <;>
    exact congrArg _ (State.onTableRequest_of hc _)

variable {w : WindowId} (hm : s.MayChange i c w)
include hm

/-- A request that the table of R50 refuses. -/
theorem exec_refusedByCondition {code : ResultCode}
    (h : (conditionTable (s.record w).recordCondition)[col]? = some (some code)) :
    exec command s = .next ((s.takeTableRequest i).refuse i c code (some (s.record w).generation)) := by
  have refused : (s.record w).condition kind = some code :=
    Option.some.inj (((s.record w).condition_eq hcol).symm.trans h)
  rw [exec_windowRequest hcol hc, State.examineRequest_mayChange hm.taken]
  exact congrArg (fun x : Option ResultCode => Host.Outcome.next (x.elim _ _)) refused

/-- A request that the table of R50 accepts is carried out. -/
theorem exec_accepted (h : (conditionTable (s.record w).recordCondition)[col]? = some none) {t : State}
    (ht : (s.takeTableRequest i).carryOut kind i c w = t) : exec command s = .next t := by
  have accepted : (s.record w).condition kind = none :=
    Option.some.inj (((s.record w).condition_eq hcol).symm.trans h)
  rw [exec_windowRequest hcol hc, State.examineRequest_mayChange hm.taken, ← ht]
  exact congrArg (fun x : Option ResultCode => Host.Outcome.next (x.elim _ _)) accepted

end

/-! ### What a window request leaves -/

/-- The state with these messages under way to the ports, these records and this monitor: all that a window request
changes besides the results at the slots. -/
def State.leaving (s : State) (toPort : Vector (List TableMessage) 6) (records : Vector WindowRecord 64)
    (monitor : Monitor) : State :=
  { s with
    links := { s.links with toPort := toPort }
    table := { s.table with records := records }
    monitor := monitor }

/-- The table has taken port i's request with this command, and left these units, messages to the ports, records and
monitor. -/
def State.Leaves (s : State) (i : PortId) (command : Instr) (units : Units) (toPort : Vector (List TableMessage) 6)
    (records : Vector WindowRecord 64) (monitor : Monitor) : Prop :=
  ∃ t, exec command s = .next t ∧ t.port = units ∧
    t = { s with
      ports := t.ports
      links := { s.links with requests := s.requestsAfter i, toPort := toPort }
      table := { s.table with requestOrder := servedOrder s.table.requestOrder i, records := records }
      monitor := monitor }

theorem State.postResult_eq (s : State) (p : PortId) (n : RequestNumber) (r : Result) :
    s.postResult p n r = { s with ports := (s.postResult p n r).ports } := by
  apply State.eq_of_blocks <;> simp

section
variable {s : State} {i : PortId} {command : Instr} {toPort : Vector (List TableMessage) 6}
  {records : Vector WindowRecord 64} {monitor : Monitor}

/-- The ports apart, what is left shows in the state that the meaning produces. -/
theorem State.Leaves.of_ports {t : State} (he : exec command s = .next t)
    (ht : t = { (s.takeTableRequest i).leaving toPort records monitor with ports := t.ports }) :
    s.Leaves i command t.port toPort records monitor := by
  refine ⟨t, he, rfl, ht.trans ?_⟩
  rw [State.takeTableRequest_eq]
  rfl

/-- Nothing is posted. -/
theorem State.Leaves.of_next (he : exec command s = .next ((s.takeTableRequest i).leaving toPort records monitor)) :
    s.Leaves i command (Units.told s.port i) toPort records monitor := by
  have hport : ((s.takeTableRequest i).leaving toPort records monitor).port = Units.told s.port i :=
    (s.takeTableRequest_frame i).1
  exact hport ▸ State.Leaves.of_ports he rfl

/-- One result is posted. -/
theorem State.Leaves.of_posted {q : PortId} {n : RequestNumber} {r : Result}
    (he : exec command s = .next (((s.takeTableRequest i).leaving toPort records monitor).postResult q n r)) :
    s.Leaves i command ((Units.told s.port i).given q n r) toPort records monitor := by
  have hport : (((s.takeTableRequest i).leaving toPort records monitor).postResult q n r).port =
      (Units.told s.port i).given q n r := by
    rw [State.postResult_port]
    exact congrArg (fun u : Units => u.given q n r) (s.takeTableRequest_frame i).1
  exact hport ▸ State.Leaves.of_ports he (State.postResult_eq _ q n r)

/-- A refused request sends nothing but its result (R51). -/
theorem State.Leaves.of_refused {c : Captured} {code : ResultCode} {g : Option Generation}
    (he : exec command s = .next ((s.takeTableRequest i).refuse i c code g)) :
    s.Leaves i command ((Units.told s.port i).given i c.number (plainResult code g)) s.links.toPort s.table.records
      s.monitor :=
  State.Leaves.of_posted he

end

/-- Settles O21: the examination step by step (`State.examineRequest_target`), and the table of R50
(`exec_refusedByCondition`); a refusal leaves everything but its result (`State.Leaves.of_refused`). -/
theorem windowRequestsAreExaminedInOrder : Obligations.WindowRequestsAreExaminedInOrder := by
  intro col kind command hcol s i c hc refused
  have examined := exec_windowRequest hcol hc
  have role : ((s.takeTableRequest i).port i).role = (s.port i).role := by simp [Units.told, Units.put]
  refine ⟨fun h => ?_, fun w hw => ⟨fun hrole => ?_, fun hrole hany hgen => ?_, fun hm code h => ?_⟩⟩
  · exact State.Leaves.of_refused (examined.trans (congrArg _ (State.examineRequest_noSuch h)))
  · rw [State.examineRequest_target hw, role, if_pos hrole] at examined
    exact State.Leaves.of_refused examined
  · have stale : c.any = false ∧ c.expected ≠ ((s.takeTableRequest i).record w).generation := ⟨hany, hgen⟩
    rw [State.examineRequest_target hw, role, if_neg (not_not.2 hrole), if_pos stale] at examined
    exact State.Leaves.of_refused examined
  · exact State.Leaves.of_refused (exec_refusedByCondition hcol hc hm h)

end Sys2Proof.Machine
end

section
/-! Requests refused for their fields or for an overlap after the record's condition accepted them (R2, R18, R49). -/

namespace Sys2Proof.Machine

/-! ### The overlap check in each request (R18) -/

theorem State.overlapPasses_false_iff (s : State) (w : WindowId) (t : Terms) (r : Rights) :
    s.table.overlapPasses w t r = false ↔ s.Overlaps w t r := by
  rw [← Bool.not_eq_true, s.overlapPasses_iff, not_not]

theorem gains_iff (old new : Rights) : gains old new = true ↔ Gains old new := by
  simp [gains, Gains, mem_allPorts]

theorem WindowBody.holdSettled_iff (b : WindowBody) :
    b.holdSettled = true ↔ ∃ q n, b.pendingOp = some (.hold q n true) := by
  unfold WindowBody.holdSettled
  rcases b.pendingOp with _ | ⟨q, n, _ | _⟩ | _ | _ <;> simp

section
variable {s : State} {p : PortId} {c : Captured} {w : WindowId}

theorem State.takeDefine_invalid (h : c.fieldSet = none) :
    s.takeDefine p c w = s.refuse p c .invalid (some (s.record w).generation) := by
  simp [State.takeDefine, h]

theorem State.takeAmend_invalid (h : c.fieldSet = none) :
    s.takeAmend p c w = s.refuse p c .invalid (some (s.record w).generation) := by
  simp [State.takeAmend, h]

theorem State.takeSetRights_invalid (h : decodeRights (c.params.get 3) = none) :
    s.takeSetRights p c w = s.refuse p c .invalid (some (s.record w).generation) := by
  simp [State.takeSetRights, h]

variable {b : WindowBody} (hb : (s.record w).body = some b)
include hb

theorem State.takeAmend_overlap {t : Terms} {r : Rights} (hf : c.fieldSet = some (t, r)) (hp : b.phase = .held)
    (ho : s.Overlaps w t r) : s.takeAmend p c w = s.refuse p c .overlap (some (s.record w).generation) := by
  simp [State.takeAmend, hf, hb, hp, (s.overlapPasses_false_iff w t r).2 ho]

theorem State.takeEnable_overlap (ho : s.Overlaps w b.terms b.rights) :
    s.takeEnable p c w = s.refuse p c .overlap (some (s.record w).generation) := by
  simp [State.takeEnable, hb, (s.overlapPasses_false_iff w b.terms b.rights).2 ho]

theorem State.takeReleaseRequest_overlap (hs : b.holdSettled = true) (ho : s.Overlaps w b.terms b.rights) :
    s.takeReleaseRequest p c w = s.refuse p c .overlap (some (s.record w).generation) := by
  simp [State.takeReleaseRequest, hb, hs, (s.overlapPasses_false_iff w b.terms b.rights).2 ho]

theorem State.takeSetRights_overlap {r : Rights} (hr : decodeRights (c.params.get 3) = some r) (hg : Gains b.rights r)
    (ho : s.Overlaps w b.terms r) :
    s.takeSetRights p c w = s.refuse p c .overlap (some (s.record w).generation) := by
  simp [State.takeSetRights, hr, hb, (gains_iff b.rights r).2 hg, (s.overlapPasses_false_iff w b.terms r).2 ho]

end

/-- Settles O22: the record's condition accepts each request (`exec_accepted`), and the lemma of the failing check says
that it is then refused. -/
theorem fieldAndOverlapRefusals : Obligations.FieldAndOverlapRefusals := by
  intro s i c w hm refused is
  let taken := s.takeTableRequest i
  refine ⟨fun hc hi hf => ?_, fun hc hi hf => ?_, fun hc hi t r hf ho => ?_, fun hc hi hf => ?_, fun b hb =>
    ⟨fun hc hi ho => ?_, fun hc hi ho => ?_, fun hc hi r hr hg ho => ?_⟩⟩
  · exact State.Leaves.of_refused (exec_accepted (col := 0) rfl hc hm (by rw [hi]; rfl)
      (State.takeDefine_invalid hf))
  · exact State.Leaves.of_refused (exec_accepted (col := 1) rfl hc hm (by rcases hi with hi | hi <;> rw [hi] <;> rfl)
      (State.takeAmend_invalid hf))
  · have notFree : (s.record w).body ≠ none := fun hn =>
      nomatch (WindowRecord.recordCondition_free_iff.2 hn).symm.trans hi
    obtain ⟨b, hb⟩ := Option.ne_none_iff_exists'.1 notFree
    have held := ((WindowRecord.recordCondition_heldSettled_iff hb).1 hi).1
    exact State.Leaves.of_refused (exec_accepted (col := 1) rfl hc hm (by rw [hi]; rfl)
      (State.takeAmend_overlap (s := taken) hb hf held ho))
  · exact State.Leaves.of_refused (exec_accepted (col := 6) rfl hc hm (by rw [hi]; rfl)
      (State.takeSetRights_invalid hf))
  · exact State.Leaves.of_refused (exec_accepted (col := 2) rfl hc hm (by rw [hi]; rfl)
      (State.takeEnable_overlap (s := taken) hb ho))
  · have settled := b.holdSettled_iff.2 ((WindowRecord.recordCondition_heldSettled_iff hb).1 hi).2
    exact State.Leaves.of_refused (exec_accepted (col := 4) rfl hc hm (by rw [hi]; rfl)
      (State.takeReleaseRequest_overlap (s := taken) hb settled ho))
  · exact State.Leaves.of_refused (exec_accepted (col := 6) rfl hc hm (by rw [hi]; rfl)
      (State.takeSetRights_overlap (s := taken) hb hr hg ho))

end Sys2Proof.Machine
end

section
/-! The parts of which the accepted window requests are made (3.2 to 3.9): the change of a record, the monitor's part,
messages to every port not OFFLINE in the table's view, and the operations that wait for acknowledgements. -/

namespace Sys2Proof.Machine

/-! ### The parts of an accepted request (R52, R53, R143) -/

/-- A request that calls for the overlap check under a condition is not refused where the check passes (R18). -/
theorem State.overlapCheck_passes {s : State} {w : WindowId} {t : Terms} {r : Rights} {called : Bool}
    (h : called = true → ¬ s.Overlaps w t r) : (called && !s.table.overlapPasses w t r) = false := by
  cases called
  · rfl
  · simpa [s.overlapPasses_iff w t r] using h rfl

theorem State.breakAndLink_eq (s : State) (w : WindowId) (e : Option Epoch) :
    s.breakAndLink w e = { s with
      monitor := { s.monitor with
        reservations := s.brokenFor w, linkEpoch := vput s.monitor.linkEpoch w e } } := by
  rw [State.breakAndLink, breakWindow_spec]
  rfl

theorem State.onlinePorts_eq (s : State) : s.onlinePorts = s.viewedOnline := by
  unfold State.onlinePorts State.viewedOnline
  congr 1
  funext p
  rcases s.table.offlineView.get p <;> rfl

theorem State.mem_viewedOnline (s : State) (p : PortId) : p ∈ s.viewedOnline ↔ s.table.offlineView.get p = false := by
  simp only [State.viewedOnline, List.mem_filter, decide_eq_true_iff, and_iff_right_iff_imp]
  exact fun _ => mem_allPorts p

/-- A message sent to several ports joins the channel of each of them. -/
theorem State.sendToPorts_toPort (s : State) {ps : List PortId} (hn : ps.Nodup) (m : TableMessage) (q : PortId) :
    (s.sendToPorts ps m).toPort q = if q ∈ ps then s.toPort q ++ [m] else s.toPort q := by
  induction ps generalizing s with
  | nil => rfl
  | cons p ps ih =>
    obtain ⟨hp, hn⟩ := List.nodup_cons.1 hn
    have first : (s.sendToPort p m).toPort q = if q = p then s.toPort q ++ [m] else s.toPort q := by
      by_cases hq : q = p <;> simp [State.sendToPort, hq]
    have step : (s.sendToPorts (p :: ps) m).toPort q = ((s.sendToPort p m).sendToPorts ps m).toPort q := rfl
    rw [step, ih _ hn, first]
    by_cases hq : q = p
    · simp [hq, hp]
    · simp [hq]

/-- A message to every port not OFFLINE in the table's view (R53). -/
theorem State.sendToPorts_online (s : State) (m : TableMessage) :
    s.sendToPorts s.onlinePorts m = { s with links := { s.links with toPort := Vector.ofFn (s.notified m) } } := by
  have nodup : s.viewedOnline.Nodup := List.Nodup.filter _ (by decide)
  have sent : (s.sendToPorts s.onlinePorts m).links.toPort = Vector.ofFn (s.notified m) := by
    apply vector_ext_get
    intro q
    rw [ofFn_get, State.onlinePorts_eq]
    exact (s.sendToPorts_toPort nodup m q).trans (if_congr (s.mem_viewedOnline q) rfl rfl)
  apply State.eq_of_blocks
  case hl => apply Links.eq_of_fields <;> simp [sent]
  all_goals simp

section
variable (s : State) {w : WindowId} (r : WindowRecord) (toPort : Vector (List TableMessage) 6) (monitor : Monitor)

@[simp] theorem State.leaving_record : (s.leaving toPort (vput s.table.records w r) monitor).record w = r := by
  simp [State.record, State.leaving]

/-- DONE carries the generation that is left (R52). -/
theorem State.leaving_postDone (p : PortId) (c : Captured) :
    (s.leaving toPort (vput s.table.records w r) monitor).postDone w p c =
      (s.leaving toPort (vput s.table.records w r) monitor).postResult p c.number
        (plainResult .done (some r.generation)) := by
  rw [State.postDone, State.leaving_record]

end

/-- Notices go out over the channels as they stood (R53). -/
theorem State.leaving_sendToPorts (s : State) (records : Vector WindowRecord 64) (monitor : Monitor)
    (m : TableMessage) :
    let t := s.leaving s.links.toPort records monitor
    t.sendToPorts t.onlinePorts m = s.leaving (Vector.ofFn (s.notified m)) records monitor :=
  State.sendToPorts_online _ m

/-- The monitor with the link epoch of window w set (R143). -/
def Monitor.linked (m : Monitor) (w : WindowId) (e : Option Epoch) : Monitor :=
  { m with linkEpoch := vput m.linkEpoch w e }

/-- The monitor of a state after a break naming window w, with its link epoch set (R143). -/
def State.brokenAndLinked (s : State) (w : WindowId) (e : Option Epoch) : Monitor :=
  { s.monitor with reservations := s.brokenFor w, linkEpoch := vput s.monitor.linkEpoch w e }

section
variable (s : State) (w : WindowId) (b : Option WindowBody) (e : Option Epoch)

theorem State.changeWindow_link :
    (s.changeWindow w b).setLinkEpoch w e =
      s.leaving s.links.toPort (vput s.table.records w { generation := (s.record w).generation + 1, body := b })
        (s.monitor.linked w e) := rfl

theorem State.changeWindow_break :
    (s.changeWindow w b).breakAndLink w e =
      s.leaving s.links.toPort (vput s.table.records w { generation := (s.record w).generation + 1, body := b })
        (s.brokenAndLinked w e) := by
  rw [State.breakAndLink_eq]
  rfl

end

/-! ### Operations that wait for acknowledgements (R15, R78, R80) -/

/-- I0 is in every set that is filled while it is not OFFLINE in the table's view. -/
theorem State.viewedOnline_ne_nil {s : State} (h : s.table.offlineView.get 0 = false) : s.viewedOnline ≠ [] :=
  List.ne_nil_of_mem ((s.mem_viewedOnline 0).2 h)

/-- The body of a window whose outstanding set is filled at generation g. -/
def WindowBody.filled (b : WindowBody) (s : State) (g : Generation) : WindowBody :=
  { b with shootSet := s.viewedOnline, setGeneration := some g }

theorem State.startOperation_eq {s : State} (h : s.table.offlineView.get 0 = false) (w : WindowId) (b : WindowBody) :
    let g := (s.record w).generation + 1
    s.startOperation w b =
      s.leaving (Vector.ofFn (s.notified (.shootDown w g)))
        (vput s.table.records w { generation := g, body := some (b.filled s g) }) s.monitor := by
  intro g
  have filled : { b with
      shootSet := s.onlinePorts
      setGeneration := if s.onlinePorts = [] then none else some g } = b.filled s g := by
    rw [State.onlinePorts_eq, if_neg (State.viewedOnline_ne_nil h)]
    rfl
  have start : s.startOperation w b =
      State.sendToPorts (s.changeWindow w (some { b with
        shootSet := s.onlinePorts
        setGeneration := if s.onlinePorts = [] then none else some g })) s.onlinePorts (.shootDown w g) := rfl
  rw [start, filled]
  exact State.sendToPorts_online (s.changeWindow w (some (b.filled s g))) _

/-- Nothing settles or finishes while a port has still to acknowledge (R88 to R90). -/
theorem WindowBody.conditionMet_outstanding {b : WindowBody} (h : b.shootSet ≠ []) : b.conditionMet = false := by
  unfold WindowBody.conditionMet
  rcases b.pendingOp with _ | _ | _ | _ <;> simp [h]

theorem State.evaluate_outstanding {s : State} {w : WindowId} {b : WindowBody} (hb : (s.record w).body = some b)
    (h : b.shootSet ≠ []) : s.evaluate w = s := by
  have waits := WindowBody.conditionMet_outstanding h
  obtain ⟨hport, htable, hlinks, hengine, hmonitor, hconfig, hpending⟩ := s.evaluate_spec w b hb
  have sameUnits : Units.evaluated s.port (s.record w).generation b = s.port := by
    unfold Units.evaluated
    rcases b.pendingOp with _ | op
    · rfl
    · simp [waits]
  have sameRecord : evaluatedRecord (s.record w).generation b = s.table.records.get w := by
    simp only [evaluatedRecord, waits, Bool.false_eq_true, if_false, ← hb]
    rfl
  refine State.eq_of_blocks (State.ports_eq_of_port fun p => ?_) hlinks ?_ hengine hmonitor hconfig hpending
  · rw [hport, sameUnits]
  · rw [htable, sameRecord, vput_self]

/-- The evaluation that ends a long request finds the acknowledgements outstanding. -/
theorem State.evaluate_started {s : State} (h : s.table.offlineView.get 0 = false) (w : WindowId) (b : WindowBody)
    (g : Generation) (toPort : Vector (List TableMessage) 6) (monitor : Monitor) :
    let t := s.leaving toPort (vput s.table.records w { generation := g, body := some (b.filled s g) }) monitor
    t.evaluate w = t := by
  intro t
  have hb : (t.record w).body = some (b.filled s g) := by simp [t]
  exact State.evaluate_outstanding hb (State.viewedOnline_ne_nil h)

/-- A long operation started with a break waits for its acknowledgements (R14, R15, R143). -/
theorem State.startOperation_breaking {s : State} (h : s.table.offlineView.get 0 = false) (w : WindowId)
    (b : WindowBody) (e : Option Epoch) :
    let g := (s.record w).generation + 1
    ((s.startOperation w b).breakAndLink w e).evaluate w =
      s.leaving (Vector.ofFn (s.notified (.shootDown w g)))
        (vput s.table.records w { generation := g, body := some (b.filled s g) }) (s.brokenAndLinked w e) := by
  intro g
  rw [State.startOperation_eq h, State.breakAndLink_eq]
  exact State.evaluate_started h w b g _ (s.brokenAndLinked w e)

/-- A long operation started without a break (R72). -/
theorem State.startOperation_widening {s : State} (h : s.table.offlineView.get 0 = false) (w : WindowId)
    (b : WindowBody) :
    let g := (s.record w).generation + 1
    (s.startOperation w b).evaluate w =
      s.leaving (Vector.ofFn (s.notified (.shootDown w g)))
        (vput s.table.records w { generation := g, body := some (b.filled s g) }) s.monitor := by
  intro g
  rw [State.startOperation_eq h]
  exact State.evaluate_started h w b g _ s.monitor

end Sys2Proof.Machine
end

section
/-! DEFINE, AMEND and ENABLE (R54 to R58). -/

namespace Sys2Proof.Machine

section
variable {s : State} {p : PortId} {c : Captured} {w : WindowId}

theorem State.takeDefine_eq {t : Terms} {r : Rights} (hf : c.fieldSet = some (t, r)) :
    s.takeDefine p c w =
      ((s.changeWindow w (some (definedBody t r))).setLinkEpoch w none).postDone w p c := by
  simp [State.takeDefine, hf]

variable {b : WindowBody} (hb : (s.record w).body = some b)
include hb

theorem State.takeAmend_eq {t : Terms} {r : Rights} (hf : c.fieldSet = some (t, r))
    (h : b.phase = .held → ¬ s.Overlaps w t r) :
    s.takeAmend p c w =
      ((s.changeWindow w (some { b with terms := t, rights := r })).setLinkEpoch w none).postDone w p c := by
  have passes : (b.phase == .held && !s.table.overlapPasses w t r) = false :=
    State.overlapCheck_passes fun hp => h (beq_iff_eq.1 hp)
  simp [State.takeAmend, hf, hb, passes]

theorem State.takeEnable_eq (h : ¬ s.Overlaps w b.terms b.rights) :
    s.takeEnable p c w =
      ((s.changeWindow w (some { b with phase := .live })).setLinkEpoch w (some b.epoch)).postDone w p c := by
  simp [State.takeEnable, hb, (s.overlapPasses_iff w b.terms b.rights).2 h]

end

/-- A request that is carried out by one change of its window and its link epoch, with DONE at once. -/
theorem State.Leaves.of_changed {s : State} {i : PortId} {c : Captured} {w : WindowId} {command : Instr}
    {b : Option WindowBody} {e : Option Epoch}
    (he : exec command s = .next
      ((((s.takeTableRequest i).changeWindow w b).setLinkEpoch w e).postDone w i c)) :
    let g := (s.record w).generation + 1
    s.Leaves i command ((Units.told s.port i).given i c.number (plainResult .done (some g))) s.links.toPort
      (vput s.table.records w { generation := g, body := b }) (s.monitor.linked w e) := by
  rw [State.changeWindow_link, State.leaving_postDone] at he
  exact State.Leaves.of_posted he

/-- Settles O23: the record's condition accepts each request, which changes its window once
(`State.Leaves.of_changed`). -/
theorem stagedWindowsAreMadeAndEnabled : Obligations.StagedWindowsAreMadeAndEnabled := by
  refine ⟨fun s i c w f r hc hm hb hf => ?_, fun s i c w b f r hc hm hb hf hcond => ?_,
    fun s i c w b hc hm hb hp ho => ?_⟩
  · have free := WindowRecord.recordCondition_free_iff.2 hb
    exact State.Leaves.of_changed (exec_accepted (col := 0) rfl hc hm (by rw [free]; rfl)
      (State.takeDefine_eq hf))
  · have accepted : (conditionTable (s.record w).recordCondition)[1]? = some none := by
      rcases hcond with h | ⟨h, -⟩ <;> rw [h] <;> rfl
    have fits : b.phase = .held → ¬ (s.takeTableRequest i).Overlaps w f r := fun hp => by
      rcases hcond with h | ⟨-, h⟩
      · rw [WindowRecord.recordCondition_staged_iff hb, hp] at h
        cases h
      · exact h
    exact State.Leaves.of_changed (exec_accepted (col := 1) rfl hc hm accepted
      (State.takeAmend_eq (s := s.takeTableRequest i) hb hf fits))
  · have staged := (WindowRecord.recordCondition_staged_iff hb).2 hp
    exact State.Leaves.of_changed (exec_accepted (col := 2) rfl hc hm (by rw [staged]; rfl)
      (State.takeEnable_eq (s := s.takeTableRequest i) hb ho))

end Sys2Proof.Machine
end

section
/-! HOLD and RELEASE (R59, R63, R65). -/

namespace Sys2Proof.Machine

/-- An accepted HOLD starts an operation that breaks the reservations naming its window (R59). -/
theorem State.takeHold_eq {s : State} {p : PortId} {c : Captured} {w : WindowId} {b : WindowBody}
    (hb : (s.record w).body = some b) (h : s.table.offlineView.get 0 = false) :
    let g := (s.record w).generation + 1
    let held : WindowBody := { b with phase := .held, pendingOp := some (.hold p c.number false) }
    s.takeHold p c w =
      s.leaving (Vector.ofFn (s.notified (.shootDown w g)))
        (vput s.table.records w { generation := g, body := some (held.filled s g) }) (s.brokenAndLinked w none) := by
  intro g held
  rw [← State.startOperation_breaking h]
  simp [State.takeHold, hb, held]

/-- Settles O24: the accepted HOLD leaves what `State.takeHold_eq` says, and posts nothing. -/
theorem holdFreezesTheWindow : Obligations.HoldFreezesTheWindow := by
  intro s i c w b hc hm hb hopen h0
  exact State.Leaves.of_next (exec_accepted (col := 3) rfl hc hm (by rw [hopen]; rfl)
    (State.takeHold_eq (s := s.takeTableRequest i) hb h0))

/-- CANCELLED reaches the requester of an unsettled HOLD alone (R63). -/
theorem State.postCancelled_hold {s : State} {w : WindowId} {r : WindowRecord} (h : s.record w = r) (q : PortId)
    (n : RequestNumber) (settled : Bool) :
    s.postCancelled w (some (.hold q n settled)) =
      if settled = false then s.postResult q n (plainResult .cancelled (some r.generation)) else s := by
  subst h
  cases settled <;> rfl

/-- The state that a RELEASE leaves before it posts its results (R63, R65). -/
def State.released (s : State) (w : WindowId) (b : WindowBody) : State :=
  s.leaving (Vector.ofFn (s.notified (.releaseNotice w)))
    (vput s.table.records w
      { generation := (s.record w).generation + 1, body := some { b with phase := .live, pendingOp := none } })
    (s.monitor.linked w (some b.epoch))

/-- An accepted RELEASE whose overlap check, where its HOLD was settled, passes: DONE, then CANCELLED (R63, log 29). -/
theorem State.takeReleaseRequest_eq {s : State} {p : PortId} {c : Captured} {w : WindowId} {b : WindowBody}
    {q : PortId} {n : RequestNumber} {settled : Bool} (hb : (s.record w).body = some b)
    (ho : b.pendingOp = some (.hold q n settled)) (h : settled = true → ¬ s.Overlaps w b.terms b.rights) :
    let g := (s.record w).generation + 1
    let posted := (s.released w b).postResult p c.number (plainResult .done (some g))
    s.takeReleaseRequest p c w =
      if settled = false then posted.postResult q n (plainResult .cancelled (some g)) else posted := by
  intro g posted
  have passes : (b.holdSettled && !s.table.overlapPasses w b.terms b.rights) = false := by
    refine State.overlapCheck_passes fun hs => h ?_
    simpa [WindowBody.holdSettled_iff, ho] using hs
  have done : (s.released w b).postDone w p c = posted := s.leaving_postDone _ _ _ p c
  have kept : posted.record w = (s.released w b).record w := State.record_congr (by simp [posted]) w
  have left := kept.trans (s.leaving_record _ _ _)
  simp only [State.takeReleaseRequest, hb, passes, Bool.false_eq_true, if_false, State.changeWindow_link,
    State.leaving_sendToPorts]
  rw [ho, ← State.postCancelled_hold left, ← done]
  rfl

/-- Two results are posted, one after the other. -/
theorem State.Leaves.of_postedTwice {s : State} {i : PortId} {command : Instr}
    {toPort : Vector (List TableMessage) 6} {records : Vector WindowRecord 64} {monitor : Monitor} {q q' : PortId}
    {n n' : RequestNumber} {r r' : Result}
    (he : exec command s = .next
      ((((s.takeTableRequest i).leaving toPort records monitor).postResult q n r).postResult q' n' r')) :
    s.Leaves i command (((Units.told s.port i).given q n r).given q' n' r') toPort records monitor := by
  let x := (s.takeTableRequest i).leaving toPort records monitor
  have hport : ((x.postResult q n r).postResult q' n' r').port =
      ((Units.told s.port i).given q n r).given q' n' r' := by
    rw [State.postResult_port, State.postResult_port]
    exact congrArg (fun u : Units => (u.given q n r).given q' n' r') (s.takeTableRequest_frame i).1
  have hstate : (x.postResult q n r).postResult q' n' r' =
      { x with ports := ((x.postResult q n r).postResult q' n' r').ports } := by
    apply State.eq_of_blocks <;> simp
  exact hport ▸ State.Leaves.of_ports he hstate

/-- Settles O25: DONE is posted first, and CANCELLED then to the requester of an unsettled HOLD
(`State.takeReleaseRequest_eq`). -/
theorem releaseReturnsTheWindowToLive : Obligations.ReleaseReturnsTheWindowToLive := by
  intro s i c w b q n settled hc hm hb hp ho hno g told done
  have accepted : (conditionTable (s.record w).recordCondition)[4]? = some none := by
    rw [WindowRecord.recordCondition_held hb hp ho]
    cases settled <;> rfl
  have carried := exec_accepted (col := 4) rfl hc hm accepted
    (State.takeReleaseRequest_eq (s := s.takeTableRequest i) hb ho hno)
  cases settled
  · exact State.Leaves.of_postedTwice carried
  · exact State.Leaves.of_posted carried

end Sys2Proof.Machine
end

section
/-! RETIRE and SET_RIGHTS (R66, R67, R69 to R72). -/

namespace Sys2Proof.Machine

/-! ### RETIRE -/

section
variable {s : State} {p : PortId} {c : Captured} {w : WindowId} {b : WindowBody} (hb : (s.record w).body = some b)
include hb

/-- RETIRE on a STAGED window: FREE at once (R66). -/
theorem State.takeRetireRequest_staged (hp : b.phase = .staged) :
    let g := (s.record w).generation + 1
    s.takeRetireRequest p c w =
      (s.leaving s.links.toPort (vput s.table.records w { generation := g, body := none })
        (s.brokenAndLinked w none)).postResult p c.number (plainResult .done (some g)) := by
  intro g
  simp only [State.takeRetireRequest, hb, hp, State.changeWindow_break, State.leaving_postDone, g]

/-- RETIRE on a HELD window: FREE at once, with retire notices (R69). -/
theorem State.takeRetireRequest_held (hp : b.phase = .held) :
    let g := (s.record w).generation + 1
    s.takeRetireRequest p c w =
      (s.leaving (Vector.ofFn (s.notified (.retireNotice w)))
        (vput s.table.records w { generation := g, body := none })
        (s.brokenAndLinked w none)).postResult p c.number (plainResult .done (some g)) := by
  intro g
  simp only [State.takeRetireRequest, hb, hp, State.changeWindow_break, State.leaving_sendToPorts,
    State.leaving_postDone, g]

/-- RETIRE on a LIVE window: DRAINING until the acknowledgements and the counts allow it to finish (R67). -/
theorem State.takeRetireRequest_live (hp : b.phase = .live) (h : s.table.offlineView.get 0 = false) :
    let g := (s.record w).generation + 1
    let draining : WindowBody := { b with phase := .draining, pendingOp := some (.retire p c.number) }
    s.takeRetireRequest p c w =
      s.leaving (Vector.ofFn (s.notified (.shootDown w g)))
        (vput s.table.records w { generation := g, body := some (draining.filled s g) })
        (s.brokenAndLinked w none) := by
  intro g draining
  simp only [State.takeRetireRequest, hb, hp, State.startOperation_breaking h, g, draining]

end

/-- Settles O26: one lemma of `State.takeRetireRequest` for each state in which a window takes a RETIRE. -/
theorem retireFreesOrDrainsTheWindow : Obligations.RetireFreesOrDrainsTheWindow := by
  intro s i c w b hc hm hb g leaves done
  let taken := s.takeTableRequest i
  refine ⟨fun hx => ?_, fun hx => ?_, fun hx h0 => ?_⟩
  · have staged := (WindowRecord.recordCondition_staged_iff hb).1 hx
    exact State.Leaves.of_posted (exec_accepted (col := 5) rfl hc hm (by rw [hx]; rfl)
      (State.takeRetireRequest_staged (s := taken) hb staged))
  · have held := ((WindowRecord.recordCondition_heldSettled_iff hb).1 hx).1
    exact State.Leaves.of_posted (exec_accepted (col := 5) rfl hc hm (by rw [hx]; rfl)
      (State.takeRetireRequest_held (s := taken) hb held))
  · have live := ((WindowRecord.recordCondition_liveOpen_iff hb).1 hx).1
    exact State.Leaves.of_next (exec_accepted (col := 5) rfl hc hm (by rw [hx]; rfl)
      (State.takeRetireRequest_live (s := taken) hb live h0))

/-! ### SET_RIGHTS -/

theorem Right.rank_lt_iff (old new : Right) :
    new.rank < old.rank ↔ (old = .readWrite ∧ new ≠ .readWrite) ∨ (old = .read ∧ new = .noRight) := by
  cases old <;> cases new <;> decide

theorem narrows_iff (old new : Rights) : narrows old new = true ↔ Narrows old new := by
  simp [narrows, Narrows, mem_allPorts, Right.rank_lt_iff]

/-- There are two epochs (R9). -/
theorem eq_otherEpoch {e f : Epoch} (h : e ≠ f) : e = otherEpoch f := by
  revert e f
  decide

section
variable {s : State} {p : PortId} {c : Captured} {w : WindowId} {b : WindowBody} {r : Rights}
  (hb : (s.record w).body = some b) (hr : decodeRights (c.params.get 3) = some r)
  (fits : Gains b.rights r → ¬ s.Overlaps w b.terms r)
include hb hr fits

/-- SET_RIGHTS where some port's right falls: the epoch flips and reservations break (R70, R71). -/
theorem State.takeSetRights_narrowing (hn : Narrows b.rights r) (h : s.table.offlineView.get 0 = false) :
    let g := (s.record w).generation + 1
    let e := otherEpoch b.epoch
    let revised : WindowBody := { b with rights := r, epoch := e, pendingOp := some (.revise p c.number true) }
    s.takeSetRights p c w =
      s.leaving (Vector.ofFn (s.notified (.shootDown w g)))
        (vput s.table.records w { generation := g, body := some (revised.filled s g) })
        (s.brokenAndLinked w (some e)) := by
  intro g e revised
  have passes : (gains b.rights r && !s.table.overlapPasses w b.terms r) = false :=
    State.overlapCheck_passes fun hg => fits ((gains_iff _ _).1 hg)
  simp only [State.takeSetRights, hb, hr, passes, (narrows_iff _ _).2 hn, Bool.false_eq_true, if_false, if_true,
    State.startOperation_breaking h, g, e, revised]

/-- SET_RIGHTS where no port's right falls (R70, R72). -/
theorem State.takeSetRights_widening (hn : ¬ Narrows b.rights r) (h : s.table.offlineView.get 0 = false) :
    let g := (s.record w).generation + 1
    let revised : WindowBody := { b with rights := r, pendingOp := some (.revise p c.number false) }
    s.takeSetRights p c w =
      s.leaving (Vector.ofFn (s.notified (.shootDown w g)))
        (vput s.table.records w { generation := g, body := some (revised.filled s g) }) s.monitor := by
  intro g revised
  have passes : (gains b.rights r && !s.table.overlapPasses w b.terms r) = false :=
    State.overlapCheck_passes fun hg => fits ((gains_iff _ _).1 hg)
  have widens : narrows b.rights r = false := by rwa [← Bool.not_eq_true, narrows_iff]
  simp only [State.takeSetRights, hb, hr, passes, widens, Bool.false_eq_true, if_false,
    State.startOperation_widening h, g, revised]

end

/-- Settles O27: a narrowing revision starts its operation with a break, a widening one without. -/
theorem setRightsRevisesTheWindow : Obligations.SetRightsRevisesTheWindow := by
  intro s i c w b r hc hm hb hopen hr fits h0 g leaves
  let taken := s.takeTableRequest i
  have accepted : (conditionTable (s.record w).recordCondition)[6]? = some none := by rw [hopen]; rfl
  refine ⟨fun hn e he => ?_, fun hn => ?_⟩
  · rw [eq_otherEpoch he]
    exact State.Leaves.of_next (exec_accepted (col := 6) rfl hc hm accepted
      (State.takeSetRights_narrowing (s := taken) hb hr fits hn h0))
  · exact State.Leaves.of_next (exec_accepted (col := 6) rfl hc hm accepted
      (State.takeSetRights_widening (s := taken) hb hr fits hn h0))

end Sys2Proof.Machine
end

section
/-! What the table takes from a port about its outstanding sets: acknowledgements and notices (R79 to R82). A port that
leaves the set of a window has the window's pending operation evaluated (R14, R16). -/

namespace Sys2Proof.Machine

/-! ### A message taken from a port -/

/-- A message taken changes its port's channel, and the walk that waits where it reaches the arbiter (R46, R76). -/
theorem State.takeFromPort_eq (s : State) (p : PortId) (rest : List PortMessage) :
    s.takeFromPort p rest = { s with
      links := { s.links with toTable := (s.takeFromPort p rest).links.toTable }
      table := { s.table with walks := (s.takeFromPort p rest).table.walks } } := by
  apply State.eq_of_blocks
  case hl => apply Links.eq_of_fields <;> simp
  case ht => apply Table.eq_of_fields <;> simp
  all_goals simp

theorem State.port_congr {s t : State} (h : t.ports = s.ports) : t.port = s.port := by
  funext p
  simp [State.port, h]

/-- A message taken, and the port units, the records and the view of the ports then changed. -/
theorem State.takeFromPort_changed {s taken t : State} {p : PortId} {m : PortMessage} {rest : List PortMessage}
    {ports : Vector PortUnit 6} {records : Vector WindowRecord 64} {view : Vector Bool 6}
    (hm : s.toTable p = m :: rest) (htaken : s.takeFromPort p rest = taken)
    (ht : t = { taken with
      ports := ports
      table := { taken.table with records := records, offlineView := view } }) :
    s.Takes t p m rest ∧
    t = { s with
      ports := ports
      links := { s.links with toTable := t.links.toTable }
      table := { s.table with records := records, walks := t.table.walks, offlineView := view } } := by
  subst htaken ht
  exact ⟨(State.takeFromPort_takes hm).congr rfl rfl, congrArg (fun x : State => { x with
    ports := ports, table := { x.table with records := records, offlineView := view } }) (s.takeFromPort_eq p rest)⟩

/-! ### A port leaves an outstanding set (R14, R16) -/

theorem WindowBody.removeOutstanding_eq (b : WindowBody) (p : PortId) : b.removeOutstanding p = b.withoutPort p := by
  have same : (fun q : PortId => q != p) = fun q => decide (q ≠ p) := by funext q; by_cases h : q = p <;> simp [h]
  simp only [WindowBody.removeOutstanding, WindowBody.withoutPort, removePort, same]

/-- The record once port p is no longer in its outstanding set: evaluated where the set held p, else as it was. -/
def WindowRecord.leftBy (r : WindowRecord) (p : PortId) : WindowRecord :=
  match r.body with
  | none => r
  | some b => if p ∈ b.shootSet then evaluatedRecord r.generation (b.withoutPort p) else r

/-- The port units once port p is no longer in the outstanding set of a record. -/
def Units.leftBy (u : Units) (p : PortId) (r : WindowRecord) : Units :=
  match r.body with
  | none => u
  | some b => if p ∈ b.shootSet then u.evaluated r.generation (b.withoutPort p) else u

/-- A port in the set of a window leaves it: the record and the slots that it posts to change, and nothing else. -/
theorem State.leaveSet_held {s : State} {p : PortId} {w : WindowId} {b : WindowBody}
    (hb : (s.record w).body = some b) (hp : p ∈ b.shootSet) :
    (s.leaveSet p w).port = Units.evaluated s.port (s.record w).generation (b.withoutPort p) ∧
    s.leaveSet p w = { s with
      ports := (s.leaveSet p w).ports
      table := { s.table with
        records := vput s.table.records w (evaluatedRecord (s.record w).generation (b.withoutPort p)) } } := by
  have left : s.leaveSet p w = (s.setBody w (some (b.withoutPort p))).evaluate w := by
    simp [State.leaveSet, hb, hp, WindowBody.removeOutstanding_eq]
  obtain ⟨hport, htable, hlinks, hengine, hmonitor, hconfig, hpending⟩ := s.setBody_evaluate w (b.withoutPort p)
  rw [left]
  exact ⟨hport, State.eq_of_blocks rfl hlinks htable hengine hmonitor hconfig hpending⟩

/-- Port p has left the outstanding set of window w, if it was in it. -/
theorem State.leaveSet_spec (s : State) (p : PortId) (w : WindowId) :
    (s.leaveSet p w).port = Units.leftBy s.port p (s.record w) ∧
    s.leaveSet p w = { s with
      ports := (s.leaveSet p w).ports
      table := { s.table with records := vput s.table.records w ((s.record w).leftBy p) } } := by
  have same : vput s.table.records w (s.record w) = s.table.records := vput_self _ _
  rcases hb : (s.record w).body with _ | b
  · simp [State.leaveSet, Units.leftBy, WindowRecord.leftBy, hb, same]
  · by_cases hp : p ∈ b.shootSet
    · simpa [Units.leftBy, WindowRecord.leftBy, hb, hp] using State.leaveSet_held hb hp
    · simp [State.leaveSet, Units.leftBy, WindowRecord.leftBy, hb, hp, same]

/-! ### Acknowledgements (R79) -/

/-- The acknowledgement carries the set generation of a set its port is in (R79). -/
def State.Acknowledges (s : State) (p : PortId) (w : WindowId) (g : Generation) : Prop :=
  ∃ b, (s.record w).body = some b ∧ p ∈ b.shootSet ∧ b.setGeneration = some g

theorem State.acknowledge_accepted {s : State} {p : PortId} {w : WindowId} {g : Generation}
    (h : s.Acknowledges p w g) : s.acknowledge p w g = s.leaveSet p w := by
  obtain ⟨b, hb, hp, hg⟩ := h
  simp [State.acknowledge, State.leaveSet, hb, hp, hg]

theorem State.acknowledge_ignored {s : State} {p : PortId} {w : WindowId} {g : Generation}
    (h : ¬ s.Acknowledges p w g) : s.acknowledge p w g = s := by
  unfold State.acknowledge
  split
  · rfl
  · rename_i b hb
    have fails : ¬ (p ∈ b.shootSet ∧ b.setGeneration = some g) := fun ⟨hp, hg⟩ => h ⟨b, hb, hp, hg⟩
    simp [fails]

/-- Settles O18: an acknowledgement that meets both conditions of R79 takes its port out of the set
(`State.leaveSet_held`), and any other leaves what the taking of the message left. -/
theorem acknowledgementLeavesTheSet : Obligations.AcknowledgementLeavesTheSet := by
  intro s p w g rest hm
  obtain ⟨ports, -, -, -, -, records, view, -⟩ := s.takeFromPort_frame p rest
  generalize htaken : s.takeFromPort p rest = taken at ports records view
  have record : taken.record w = s.record w := State.record_congr records w
  have port : taken.port = s.port := State.port_congr ports
  have he : exec (.acknowledgement p) s = .next (taken.acknowledge p w g) := by
    simp only [exec, execAcknowledgement, hm, htaken]
  refine ⟨_, he, ?_⟩
  by_cases h : taken.Acknowledges p w g
  · rw [State.acknowledge_accepted h]
    obtain ⟨b, hb, hp, hg⟩ := h
    obtain ⟨units, left⟩ := State.leaveSet_held hb hp
    generalize taken.leaveSet p w = t at units left ⊢
    obtain ⟨takes, frame⟩ := State.takeFromPort_changed hm htaken left
    have changed := congrArg (·.table.records) left
    simp only [records, record, port] at changed units hb
    rw [view, records, record, ← changed] at frame
    refine ⟨takes, frame, fun b' hb' _ _ => ?_, fun fails => ?_⟩
    · obtain rfl : b = b' := Option.some.inj (hb.symm.trans hb')
      exact ⟨changed, units⟩
    · exact absurd (fails b hb) (by simp [hp, hg])
  · rw [State.acknowledge_ignored h]
    obtain ⟨takes, frame⟩ := State.takeFromPort_changed (t := taken) hm htaken rfl
    rw [view] at frame
    refine ⟨takes, frame, fun b hb hp hg => ?_, fun _ => ⟨records, ports⟩⟩
    exact absurd ⟨b, record ▸ hb, hp, hg⟩ h

/-! ### Notices (R81, R82) -/

/-- Port p leaves the outstanding sets of a list of windows, each once. -/
theorem State.leaveSets_spec (p : PortId) {ws : List WindowId} (once : ws.Nodup) (s : State) :
    let t := ws.foldl (fun t w => t.leaveSet p w) s
    t.port = ws.foldl (fun (u : Units) w => Units.leftBy u p (s.record w)) s.port ∧
    (∀ w, t.record w = if w ∈ ws then (s.record w).leftBy p else s.record w) ∧
    t = { s with ports := t.ports, table := { s.table with records := t.table.records } } := by
  induction ws generalizing s with
  | nil => exact ⟨rfl, fun w => by simp, rfl⟩
  | cons v ws ih =>
    obtain ⟨fresh, once⟩ := List.nodup_cons.1 once
    obtain ⟨hport, hs⟩ := s.leaveSet_spec p v
    have record := State.record_of_vput (congrArg (·.table.records) hs)
    obtain ⟨ports, records, frame⟩ := ih once (s.leaveSet p v)
    rw [List.foldl_cons]
    generalize ws.foldl (fun t w => t.leaveSet p w) (s.leaveSet p v) = t at ports records frame ⊢
    refine ⟨?_, fun w => ?_, ?_⟩
    · rw [ports, hport, List.foldl_cons]
      refine List.foldl_ext _ _ _ fun u w hw => ?_
      rw [record w, if_neg (ne_of_mem_of_not_mem hw fresh)]
    · rw [records w, record w]
      by_cases hw : w = v
      · subst hw; simp [fresh]
      · simp [hw]
    · rw [hs] at frame
      exact frame

/-- Settles O19: the offline notice takes its port out of every set, window by window (`State.leaveSets_spec`); the
online notice changes the view alone. -/
theorem noticesSetTheView : Obligations.NoticesSetTheView := by
  intro s p rest
  obtain ⟨ports, -, -, -, -, records, view, -⟩ := s.takeFromPort_frame p rest
  generalize htaken : s.takeFromPort p rest = taken at ports records view
  have record : ∀ w, taken.record w = s.record w := State.record_congr records
  have port : taken.port = s.port := State.port_congr ports
  constructor
  · intro hm
    have he : exec (.offlineNotice p) s =
        .next (allWindows.foldl (fun t w => t.leaveSet p w) (taken.setView p true)) := by
      simp only [exec, execOfflineNotice, hm, htaken]
    refine ⟨_, he, ?_⟩
    obtain ⟨units, left, changed⟩ := State.leaveSets_spec p (List.nodup_finRange 64) (taken.setView p true)
    rw [allWindows]
    generalize (List.finRange 64).foldl (fun t w => t.leaveSet p w) (taken.setView p true) = t at units left changed ⊢
    obtain ⟨takes, frame⟩ := State.takeFromPort_changed (view := vput taken.table.offlineView p true) hm htaken
      changed
    rw [view] at frame
    refine ⟨takes, frame, fun w => ?_, ?_⟩
    · rw [← record w]
      exact (left w).trans (if_pos (List.mem_finRange w))
    · simp only [← record, ← port]
      exact units
  · intro hm
    have he : exec (.onlineNotice p) s = .next (taken.setView p false) := by
      simp only [exec, execOnlineNotice, hm, htaken]
    refine ⟨_, he, ?_⟩
    obtain ⟨takes, frame⟩ := State.takeFromPort_changed (t := taken.setView p false) hm htaken rfl
    rw [ports, records, view] at frame
    exact ⟨takes, frame⟩

end Sys2Proof.Machine
end

section
/-! Shoot-downs as the ports take them (R36, R78). -/

namespace Sys2Proof.Machine

theorem Lookaside.invalidate_entry (l : Lookaside) (w : WindowId) (i : Fin 4) :
    (l.invalidate w).entries.get i = (l.entries.get i).filter fun c => c.window ≠ w := by
  simp [Lookaside.invalidate, bne, beq_eq_decide]

/-- The entries that leave the order of recent use are those made invalid (R36). -/
theorem Lookaside.invalidate_order (l : Lookaside) (w : WindowId) :
    (l.invalidate w).order = l.order.filter fun i => (l.entries.get i).all fun c => c.window ≠ w := by
  refine List.filter_congr fun i _ => ?_
  rcases he : l.entries.get i with _ | c <;> simp [Lookaside.holds, he, beq_eq_decide]

/-- Settles O20: the entry goes by `Lookaside.invalidate`, and the acknowledgement joins what the port has sent
(`State.sendToTable_sends`). -/
theorem shootDownIsAcknowledged : Obligations.ShootDownIsAcknowledged := by
  intro s p w g rest hm
  let l := (s.port p).lookaside.invalidate w
  let cleared : State := (s.setToPort p rest).modifyPort p fun u => { u with lookaside := l }
  have he : exec (.shootDown p) s = .next (cleared.sendToTable p (.acknowledgement w g)) := by
    simp only [exec, execShootDown, hm]
    rfl
  refine ⟨_, l, he, (cleared.sendToTable_sends p _).congr_left rfl rfl, cleared.sendToTable_eq p _,
    fun i c hc => ?_, fun i hi => ?_, Lookaside.invalidate_order _ w⟩
  · rw [Lookaside.invalidate_entry, hc]
    by_cases hw : c.window = w <;> simp [Option.filter, hw]
  · rw [Lookaside.invalidate_entry, hi]
    rfl

end Sys2Proof.Machine
end

section
/-! What the law of the bus reads of a state, the engine and the stages of the current accesses, through the operations
and commands that change neither: those of the channels, the records, the slots and the reservation monitor. -/

namespace Sys2Proof.Machine

/-- The engine, and the stage of each port's current access: all that the law of the bus reads. -/
def State.bus (s : State) : Engine × (PortId → CurrentAccess) := (s.engine, fun p => (s.port p).current)

theorem State.bus_engine {s t : State} (h : t.bus = s.bus) : t.engine = s.engine := congrArg Prod.fst h

theorem State.bus_current {s t : State} (h : t.bus = s.bus) (p : PortId) :
    (t.port p).current = (s.port p).current :=
  congrFun (congrArg Prod.snd h) p

theorem State.bus_of_current {s t : State} (he : t.engine = s.engine)
    (hc : ∀ p, (t.port p).current = (s.port p).current) : t.bus = s.bus :=
  Prod.ext he (funext hc)

theorem State.bus_of_ports {s t : State} (he : t.engine = s.engine) (hp : t.ports = s.ports) : t.bus = s.bus :=
  State.bus_of_current he fun p => by simp [State.port, hp]

/-! ### Ports and slots -/

@[simp] theorem State.modifyPort_bus (s : State) (p : PortId) (f : PortUnit → PortUnit)
    (h : (f (s.port p)).current = (s.port p).current) : (s.modifyPort p f).bus = s.bus :=
  State.bus_of_current rfl fun q => by by_cases hq : q = p <;> simp [hq, h]

@[simp] theorem State.postResult_bus (s : State) (p : PortId) (n : RequestNumber) (r : Result) :
    (s.postResult p n r).bus = s.bus :=
  State.bus_of_current (by simp) (by simp)

@[simp] theorem State.requestTaken_bus (s : State) (p : PortId) : (s.requestTaken p).bus = s.bus :=
  s.modifyPort_bus p (fun u => { u with staleRequest := false, slot := { u.slot with held := none } }) rfl

@[simp] theorem State.clearSlot_bus (s : State) (p : PortId) : (s.clearSlot p).bus = s.bus :=
  s.modifyPort_bus p _ rfl

@[simp] theorem State.offerFault_bus (s : State) (p : PortId) (f : FaultInfo) : (s.offerFault p f).bus = s.bus :=
  s.modifyPort_bus p _ (by simp [PortUnit.offered_current])

@[simp] theorem State.routeDeferred_bus (s : State) (e : StoreEntry) (f : FaultInfo) :
    (s.routeDeferred e f).bus = s.bus := by
  unfold State.routeDeferred
  split
  · exact s.offerFault_bus _ f
  · exact State.bus_of_ports (by simp) (by simp)

@[simp] theorem State.postOffline_bus (s : State) (p : PortId) : (s.postOffline p).bus = s.bus := by
  unfold State.postOffline
  dsimp only
  split <;> simp

/-! ### Channels, the reservation monitor and the configuration unit -/

@[simp] theorem State.settleWalk_bus (s : State) (p : PortId) : (s.settleWalk p).bus = s.bus :=
  State.bus_of_ports (by simp) (by simp)

@[simp] theorem State.sendToTable_bus (s : State) (p : PortId) (m : PortMessage) : (s.sendToTable p m).bus = s.bus :=
  State.bus_of_ports (by simp) (by simp)

@[simp] theorem State.takeFromPort_bus (s : State) (p : PortId) (l : List PortMessage) :
    (s.takeFromPort p l).bus = s.bus :=
  State.bus_of_ports (by simp) (by simp)

@[simp] theorem State.setToPort_bus (s : State) (p : PortId) (l : List TableMessage) : (s.setToPort p l).bus = s.bus :=
  rfl

@[simp] theorem State.sendToPort_bus (s : State) (p : PortId) (m : TableMessage) : (s.sendToPort p m).bus = s.bus :=
  rfl

@[simp] theorem State.sendToPorts_bus (s : State) (ps : List PortId) (m : TableMessage) :
    (s.sendToPorts ps m).bus = s.bus :=
  State.bus_of_ports (by simp) (by simp)

@[simp] theorem State.setRequest_bus (s : State) (p : PortId) (c : Option Captured) : (s.setRequest p c).bus = s.bus :=
  rfl

@[simp] theorem State.engineSubtract_bus (s : State) (w : WindowId) (e : Epoch) :
    (s.engineSubtract w e).bus = s.bus := rfl

@[simp] theorem State.setReservation_bus (s : State) (p : PortId) (r : Option Reservation) :
    (s.setReservation p r).bus = s.bus := rfl

@[simp] theorem State.setPermission_bus (s : State) (p : PortId) (b : Bool) : (s.setPermission p b).bus = s.bus := rfl

@[simp] theorem State.setLinkEpoch_bus (s : State) (w : WindowId) (e : Option Epoch) :
    (s.setLinkEpoch w e).bus = s.bus := rfl

@[simp] theorem State.keepReservations_bus (s : State) (keep : Reservation → Bool) :
    (s.keepReservations keep).bus = s.bus := rfl

@[simp] theorem State.breakAndLink_bus (s : State) (w : WindowId) (e : Option Epoch) :
    (s.breakAndLink w e).bus = s.bus := rfl

@[simp] theorem State.dropForLinkedRead_bus (s : State) (p : PortId) (h : AccessHead) :
    (s.dropForLinkedRead p h).bus = s.bus :=
  State.bus_of_ports (by simp) (by simp)

@[simp] theorem State.reportLinkedRead_bus (s : State) (p : PortId) (a : SysAddr) (w : WindowId) (e : Epoch) :
    (s.reportLinkedRead p a w e).bus = s.bus :=
  State.bus_of_ports (by simp) (by simp)

@[simp] theorem State.reportPart_bus (s : State) (part : BusPart) : (s.reportPart part).bus = s.bus :=
  State.bus_of_ports (by simp) (by simp)

/-! ### Entry into OFFLINE -/

@[simp] theorem State.enterOffline_bus (s : State) (p : PortId) : (s.enterOffline p).bus = s.bus := by
  simp [State.enterOffline]

@[simp] theorem State.evaluateQuiesce_bus (s : State) (p : PortId) : (s.evaluateQuiesce p).bus = s.bus := by
  unfold State.evaluateQuiesce
  split <;> simp

/-! ### Records and the table's requests -/

@[simp] theorem State.setRecord_bus (s : State) (w : WindowId) (r : WindowRecord) : (s.setRecord w r).bus = s.bus := rfl

@[simp] theorem State.setBody_bus (s : State) (w : WindowId) (b : Option WindowBody) : (s.setBody w b).bus = s.bus :=
  rfl

@[simp] theorem State.changeWindow_bus (s : State) (w : WindowId) (b : Option WindowBody) :
    (s.changeWindow w b).bus = s.bus := rfl

@[simp] theorem State.modifyCount_bus (s : State) (w : WindowId) (e : Epoch) (f : Nat → Nat) :
    (s.modifyCount w e f).bus = s.bus := rfl

@[simp] theorem State.evaluate_bus (s : State) (w : WindowId) : (s.evaluate w).bus = s.bus := by
  rcases hb : (s.record w).body with _ | b
  · rw [s.evaluate_free w hb]
  · obtain ⟨hport, -, -, hengine, -⟩ := s.evaluate_spec w b hb
    exact State.bus_of_current hengine (by simp [hport])

@[simp] theorem State.startOperation_bus (s : State) (w : WindowId) (b : WindowBody) :
    (s.startOperation w b).bus = s.bus := by
  simp [State.startOperation]

@[simp] theorem State.refuse_bus (s : State) (p : PortId) (c : Captured) (code : ResultCode) (g : Option Generation) :
    (s.refuse p c code g).bus = s.bus :=
  s.postResult_bus _ _ _

@[simp] theorem State.postDone_bus (s : State) (w : WindowId) (p : PortId) (c : Captured) :
    (s.postDone w p c).bus = s.bus :=
  s.postResult_bus _ _ _

@[simp] theorem State.postCancelled_bus (s : State) (w : WindowId) (op : Option PendingOp) :
    (s.postCancelled w op).bus = s.bus := by
  unfold State.postCancelled
  split <;> simp

@[simp] theorem State.takeTableRequest_bus (s : State) (p : PortId) : (s.takeTableRequest p).bus = s.bus :=
  State.requestTaken_bus _ p

theorem State.onTableRequest_bus (s : State) (kind : RequestKind) (act : PortId → Captured → State → State)
    (h : ∀ p c t, (act p c t).bus = t.bus) : (s.onTableRequest kind act).bus = s.bus := by
  unfold State.onTableRequest
  split
  · rfl
  · split
    · rw [h, State.takeTableRequest_bus]
    · rfl

theorem State.examineRequest_bus (s : State) (kind : RequestKind) (p : PortId) (c : Captured)
    (act : WindowId → State → State) (h : ∀ w, (act w s).bus = s.bus) : (s.examineRequest kind p c act).bus = s.bus := by
  unfold State.examineRequest
  dsimp only
  split_ifs
  · simp
  · simp
  · split
    · simp
    · exact h _
  · simp

/-! ### Window requests (Section 3) -/

theorem State.takeDefine_bus (s : State) (p : PortId) (c : Captured) (w : WindowId) :
    (s.takeDefine p c w).bus = s.bus := by
  unfold State.takeDefine
  split <;> simp

theorem State.takeAmend_bus (s : State) (p : PortId) (c : Captured) (w : WindowId) :
    (s.takeAmend p c w).bus = s.bus := by
  unfold State.takeAmend
  dsimp only
  split
  · split <;> simp
  · simp

theorem State.takeEnable_bus (s : State) (p : PortId) (c : Captured) (w : WindowId) :
    (s.takeEnable p c w).bus = s.bus := by
  unfold State.takeEnable
  split
  · rfl
  · split <;> simp

theorem State.takeHold_bus (s : State) (p : PortId) (c : Captured) (w : WindowId) :
    (s.takeHold p c w).bus = s.bus := by
  unfold State.takeHold
  split <;> simp

theorem State.takeReleaseRequest_bus (s : State) (p : PortId) (c : Captured) (w : WindowId) :
    (s.takeReleaseRequest p c w).bus = s.bus := by
  unfold State.takeReleaseRequest
  split
  · rfl
  · split <;> simp

theorem State.takeRetireRequest_bus (s : State) (p : PortId) (c : Captured) (w : WindowId) :
    (s.takeRetireRequest p c w).bus = s.bus := by
  unfold State.takeRetireRequest
  split
  · rfl
  · split <;> simp

theorem State.takeSetRights_bus (s : State) (p : PortId) (c : Captured) (w : WindowId) :
    (s.takeSetRights p c w).bus = s.bus := by
  unfold State.takeSetRights
  dsimp only
  split
  · split
    · simp
    · split <;> simp
  · simp

theorem State.takeQueryWindow_bus (s : State) (p : PortId) (c : Captured) : (s.takeQueryWindow p c).bus = s.bus := by
  unfold State.takeQueryWindow
  dsimp only
  split_ifs <;> simp

/-- A window request that the arbiter chooses, examined (R49). -/
theorem State.windowRequest_bus (s : State) (kind : RequestKind) (act : PortId → Captured → WindowId → State → State)
    (h : ∀ (t : State) p c w, (act p c w t).bus = t.bus) :
    (s.onTableRequest kind fun p c t => t.examineRequest kind p c (act p c)).bus = s.bus :=
  s.onTableRequest_bus kind _ fun p c t => t.examineRequest_bus kind p c _ fun w => h t p c w

/-! ### Requests to ports and to the configuration unit -/

theorem State.onRequest_bus (s : State) (kind : RequestKind) (issuer : PortId) (act : Captured → State → State)
    (h : ∀ c t, (act c t).bus = t.bus) : (s.onRequest kind issuer act).bus = s.bus := by
  unfold State.onRequest
  split
  · rfl
  · split
    · rw [h, State.requestTaken_bus]
    · rfl

theorem State.onPortRequest_bus (s : State) (kind : RequestKind) (issuer : PortId)
    (act : PortId → Captured → State → State) (h : ∀ q c t, (act q c t).bus = t.bus) :
    (s.onPortRequest kind issuer act).bus = s.bus :=
  s.onRequest_bus kind issuer _ fun c t => by
    split
    · exact h _ _ _
    · simp

@[simp] theorem State.reply_bus (s : State) (p : PortId) (c : Captured) (code : ResultCode) :
    (s.reply p c code).bus = s.bus :=
  s.postResult_bus _ _ _

theorem State.takeOnline_bus (s : State) (issuer target : PortId) (c : Captured) :
    (s.takeOnline issuer target c).bus = s.bus := by
  unfold State.takeOnline
  dsimp only
  split_ifs <;> simp

theorem State.takeOffline_bus (s : State) (issuer target : PortId) (c : Captured) :
    (s.takeOffline issuer target c).bus = s.bus := by
  unfold State.takeOffline
  dsimp only
  split_ifs <;> simp

theorem State.takeFence_bus (s : State) (issuer target : PortId) (c : Captured) :
    (s.takeFence issuer target c).bus = s.bus := by
  unfold State.takeFence
  split_ifs <;> simp

theorem State.takeUnfence_bus (s : State) (issuer target : PortId) (c : Captured) :
    (s.takeUnfence issuer target c).bus = s.bus := by
  unfold State.takeUnfence
  split_ifs <;> simp

theorem State.takeClearFault_bus (s : State) (issuer target : PortId) (c : Captured) :
    (s.takeClearFault issuer target c).bus = s.bus := by
  unfold State.takeClearFault
  split
  · rw [State.reply_bus, State.modifyPort_bus _ _ _ rfl]
  · simp

theorem State.takeQueryPort_bus (s : State) (issuer target : PortId) (c : Captured) :
    (s.takeQueryPort issuer target c).bus = s.bus := by
  unfold State.takeQueryPort
  split
  · split <;> simp
  · simp

theorem State.takeSetParam_bus (s : State) (issuer : PortId) (c : Captured) :
    (s.takeSetParam issuer c).bus = s.bus := by
  unfold State.takeSetParam
  split_ifs
  · simp
  · simp
  · split
    · rw [State.reply_bus]
      rfl
    · simp

theorem State.takeClearDeviceFault_bus (s : State) (issuer : PortId) (c : Captured) :
    (s.takeClearDeviceFault issuer c).bus = s.bus := by
  unfold State.takeClearDeviceFault
  split
  · rw [State.reply_bus]
    rfl
  · simp

theorem State.takeQueryDevice_bus (s : State) (issuer : PortId) (c : Captured) :
    (s.takeQueryDevice issuer c).bus = s.bus := by
  unfold State.takeQueryDevice
  split
  · split <;> simp
  · simp

/-! ### Messages to the table -/

theorem execWalk_bus {s t : State} (h : execWalk s = .next t) : t.bus = s.bus := by
  cases h
  split
  · rfl
  · split
    · rfl
    · rw [State.takeWalk_eq, State.sendToPort_bus]
      have counted : ∀ (u : State) m, (u.countAnswer m).bus = u.bus := fun u m => by
        unfold State.countAnswer
        split <;> simp
      rw [counted]
      exact State.settleWalk_bus _ _

theorem execSubtraction_bus {sender : SubtractionSender} {s t : State} (h : execSubtraction sender s = .next t) :
    t.bus = s.bus := by
  cases h
  split
  · split
    · simp [State.subtract]
    · rfl
  · split
    · rw [State.subtract, State.evaluate_bus, State.modifyCount_bus]
      rfl
    · rfl

theorem execAcknowledgement_bus {p : PortId} {s t : State} (h : execAcknowledgement p s = .next t) :
    t.bus = s.bus := by
  cases h
  split
  · unfold State.acknowledge
    split
    · simp
    · split <;> simp
  · rfl

theorem State.leaveSet_bus (s : State) (p : PortId) (w : WindowId) : (s.leaveSet p w).bus = s.bus := by
  unfold State.leaveSet
  split
  · rfl
  · split <;> simp

theorem execOfflineNotice_bus {p : PortId} {s t : State} (h : execOfflineNotice p s = .next t) : t.bus = s.bus := by
  have left : ∀ (ws : List WindowId) (u : State), (ws.foldl (fun t w => t.leaveSet p w) u).bus = u.bus := by
    intro ws
    induction ws with
    | nil => exact fun _ => rfl
    | cons w ws ih => exact fun u => (ih _).trans (u.leaveSet_bus p w)
  cases h
  split
  · rw [left]
    exact State.takeFromPort_bus _ _ _
  · rfl

theorem execOnlineNotice_bus {p : PortId} {s t : State} (h : execOnlineNotice p s = .next t) : t.bus = s.bus := by
  cases h
  split
  · exact State.takeFromPort_bus _ _ _
  · rfl

/-! ### Other events off the bus -/

theorem execShootDown_bus {p : PortId} {s t : State} (h : execShootDown p s = .next t) : t.bus = s.bus := by
  cases h
  split
  · rw [State.sendToTable_bus, State.setLookaside_eq, State.modifyPort_bus _ _ _ rfl, State.setToPort_bus]
  · rfl

theorem execExternalWriteAck_bus {a : SysAddr} {z : AccessSize} {s t : State}
    (h : execExternalWriteAck a z s = .next t) : t.bus = s.bus := by
  cases h
  split <;> simp

theorem execEntryFinishedReport_bus {p : PortId} {s t : State} (h : execEntryFinishedReport p s = .next t) :
    t.bus = s.bus := by
  cases h
  split
  · rfl
  · rw [State.evaluateQuiesce_bus, State.modifyPort_bus _ _ _ rfl]
    rfl

theorem State.setResetInput_bus (s : State) (p : PortId) (b : Bool) : (s.setResetInput p b).bus = s.bus :=
  s.modifyPort_bus p _ rfl

end Sys2Proof.Machine
end

section
/-! The law of the bus (R94, R101, R106, R114, R116, R122, R126) through the arbiter's choices, the ending of a part, and
the finish of an access or entry. -/

namespace Sys2Proof.Machine

/-! ### What the law reads -/

theorem State.BusConsistent.of_bus {s t : State} (h : s.BusConsistent) (e : t.bus = s.bus) : t.BusConsistent := by
  have he := State.bus_engine e
  obtain ⟨hold, work, once, wait⟩ := h
  refine ⟨?_, ?_, he ▸ once, ?_⟩
  · unfold State.HolderHasThePart
    rwa [he]
  · unfold State.RecordHasItsWork at work ⊢
    simpa only [he, State.bus_current e] using work
  · simpa only [he, State.bus_current e] using wait

/-- The current access has been offered to the store or to the arbiter, or has been granted (R34, R101). -/
def CurrentAccess.Offered (c : CurrentAccess) : Prop := (∃ a adm, c = .waiting a adm true) ∨ ∃ a adm, c = .onBus a adm

/-- Waiting lists that only lose ports, each of the others waiting as before (R122, R123). -/
theorem State.WaitersWait.of_sublist {s t : State} (h : s.WaitersWait)
    (hl : t.engine.waitingList.Sublist s.engine.waitingList)
    (hc : ∀ q ∈ t.engine.waitingList, (t.port q).current = (s.port q).current) : t.WaitersWait :=
  ⟨h.1.sublist hl, fun q hq => by rw [hc q hq]; exact h.2 q (hl.subset hq)⟩

theorem State.WaitersWait.not_mem {s : State} {p : PortId} (h : s.WaitersWait)
    (hp : ∀ a adm, (s.port p).current = .waiting a adm true → adm.posted = false) : p ∉ s.engine.waitingList :=
  fun hm => by
    obtain ⟨a, adm, hc, hposted⟩ := h.2 p hm
    rw [hp a adm hc] at hposted
    cases hposted

theorem State.WaitersWait.not_mem_onBus {s : State} {p : PortId} {a : Access} {adm : Admission} (h : s.WaitersWait)
    (hc : (s.port p).current = .onBus a adm) : p ∉ s.engine.waitingList :=
  h.not_mem fun a' adm' hw => by rw [hc] at hw; cases hw

theorem State.WaitersWait.not_mem_unoffered {s : State} {p : PortId} (h : s.WaitersWait)
    (hp : ¬ (s.port p).current.Offered) : p ∉ s.engine.waitingList :=
  h.not_mem fun a adm hw => absurd (.inl ⟨a, adm, hw⟩) hp

/-- The engine's state is that of s, and so is every current access but port p's. -/
def State.ChangesAt (s t : State) (p : PortId) : Prop :=
  t.engine = s.engine ∧ ∀ q, q ≠ p → (t.port q).current = (s.port q).current

theorem State.ChangesAt.of_bus {s t : State} (p : PortId) (h : t.bus = s.bus) : s.ChangesAt t p :=
  ⟨State.bus_engine h, fun q _ => State.bus_current h q⟩

theorem State.ChangesAt.trans {s t u : State} {p : PortId} (h : s.ChangesAt t p) (k : t.ChangesAt u p) :
    s.ChangesAt u p :=
  ⟨k.1.trans h.1, fun q hq => (k.2 q hq).trans (h.2 q hq)⟩

theorem State.modifyPort_changesAt (s : State) (p : PortId) (f : PortUnit → PortUnit) :
    s.ChangesAt (s.modifyPort p f) p :=
  ⟨rfl, fun q hq => by simp [hq]⟩

theorem State.endCurrent_changesAt (s : State) (p : PortId) (a : Answer) (f : Option FaultInfo) :
    s.ChangesAt (s.endCurrent p a f) p := by
  rw [State.endCurrent_eq]
  exact (s.modifyPort_changesAt p _).trans (.of_bus p (State.evaluateQuiesce_bus _ p))

/-- A record whose port's access changes is abandoned, or a store entry's (R94). -/
theorem State.RecordHasItsWork.changesAt {s t : State} {p : PortId} (h : s.RecordHasItsWork) (k : s.ChangesAt t p)
    (hp : ∀ a adm, (s.port p).current ≠ .onBus a adm) : t.RecordHasItsWork := by
  intro r hr
  rw [k.1] at hr ⊢
  obtain ⟨kind, current, part⟩ := h r hr
  refine ⟨kind, fun hs ha => ?_, part⟩
  obtain ⟨a, adm, hc⟩ := current hs ha
  have hq : r.origin ≠ p := fun e => hp a adm (e ▸ hc)
  exact ⟨a, adm, (k.2 _ hq).trans hc⟩

/-- The law of the bus leaves an access that has not been offered to change freely. -/
theorem State.BusConsistent.changesAt {s t : State} {p : PortId} (h : s.BusConsistent)
    (hp : ¬ (s.port p).current.Offered) (k : s.ChangesAt t p) : t.BusConsistent := by
  obtain ⟨hold, work, wait⟩ := h
  refine ⟨?_, work.changesAt k fun a adm hc => hp (.inr ⟨a, adm, hc⟩), ?_⟩
  · unfold State.HolderHasThePart
    rwa [k.1]
  · refine wait.of_sublist (by rw [k.1]) fun q hq => k.2 q ?_
    rintro rfl
    exact wait.not_mem_unoffered hp (k.1 ▸ hq)

/-! ### The free bus -/

/-- Nothing is presented and nobody has the grant (R94, R106). -/
structure Engine.Quiet (e : Engine) : Prop where
  part : e.part = none
  timer : e.timer = none
  extGrant : e.extGrant = false

theorem State.BusConsistent.quiet {s : State} (h : s.BusConsistent) (hh : s.engine.holder = .free) :
    s.engine.Quiet := by
  have hold := h.1
  unfold State.HolderHasThePart at hold
  rw [hh] at hold
  exact ⟨hold.1, hold.2.1, hold.2.2⟩

theorem State.busConsistent_of_free {s : State} (hh : s.engine.holder = .free) (hq : s.engine.Quiet)
    (work : s.RecordHasItsWork) (wait : s.WaitersWait) : s.BusConsistent := by
  refine ⟨?_, work, wait⟩
  unfold State.HolderHasThePart
  rw [hh]
  exact ⟨hq.part, hq.timer, hq.extGrant⟩

theorem State.recordHasItsWork_none {s : State} (h : s.engine.access = none) : s.RecordHasItsWork :=
  fun r hr => by rw [h] at hr; cases hr

/-! ### The arbiter's choices (R98, R99, R113) -/

/-- What the record granted at a free bus is, and where its port's access then stands (R95, R101, R126). -/
structure State.GrantFits (s : State) (p : PortId) (r : BusAccess) (c : CurrentAccess) : Prop where
  origin : r.origin = p
  inForce : r.abandoned = false
  entry : r.fromStore = true → r.kind = .write
  access : r.fromStore = false → (∃ a adm, c = .onBus a adm) ∧ p ∉ s.engine.waitingList
  stage : r.fromStore = true → c = (s.port p).current

theorem State.GrantRecord.fits {s : State} {p : PortId} {r : BusAccess} {c : CurrentAccess} (hr : s.GrantRecord p r c)
    (hp : s.Competes p) (h : s.BusConsistent) (hh : s.engine.holder = .free) : s.GrantFits p r c := by
  rcases hr with ⟨ha, rfl⟩ | ⟨ha, e, before, after, ho, rfl, rfl⟩ | ⟨ha, -, a, adm, ho, rfl, rfl⟩
  · obtain ⟨kind, current, part⟩ := h.2.1 r ha
    have origin : r.origin = p := hp.2.2 r ha
    have inForce : r.abandoned = false := by
      rcases hx : r.abandoned with _ | _
      · rfl
      · exact absurd (h.quiet hh).part (part hx)
    subst origin
    refine ⟨rfl, inForce, kind, fun hs => ?_, fun _ => rfl⟩
    obtain ⟨a, adm, hc⟩ := current hs inForce
    exact ⟨⟨a, adm, hc⟩, h.2.2.not_mem_onBus hc⟩
  · exact ⟨ho.2.1, rfl, fun _ => rfl, nofun, fun _ => rfl⟩
  · refine ⟨rfl, rfl, nofun, fun _ => ⟨⟨a, adm, rfl⟩, h.2.2.not_mem fun a' adm' hw => ?_⟩, nofun⟩
    obtain ⟨hc, hn⟩ := ho
    rw [hc] at hw
    cases hw
    exact hn

theorem State.started_current (s : State) (p : PortId) (r : BusAccess) (c : CurrentAccess) (q : PortId) :
    ((s.started p r c).port q).current = if q = p then c else (s.port q).current := by
  by_cases hq : q = p <;> simp [State.started, State.port, hq]

theorem State.GrantFits.busConsistent {s : State} {p : PortId} {r : BusAccess} {c : CurrentAccess}
    (hf : s.GrantFits p r c) (hw : s.WaitersWait) (hg : s.engine.extGrant = false) :
    (s.started p r c).BusConsistent := by
  obtain ⟨rfl, inForce, entry, access, stage⟩ := hf
  refine ⟨?_, fun r' hr' => ?_, hw.of_sublist (List.Sublist.refl _) fun q hq => ?_⟩
  · have fresh : s.freshTimer ≠ none := nofun
    rcases hs : r.fromStore with _ | _ <;>
      simp [State.HolderHasThePart, State.started, State.grantedEngine, hs, fresh, hg]
  · obtain rfl : r = r' := Option.some.inj hr'
    refine ⟨entry, fun hs _ => ?_, fun hx => absurd hx (by simp [inForce])⟩
    rw [State.started_current, if_pos rfl]
    exact (access hs).1
  · rw [State.started_current]
    split
    · rename_i e
      subst e
      rcases hs : r.fromStore with _ | _
      · exact absurd hq (access hs).2
      · exact stage hs
    · rfl

/-- A change of a port's unit, with the OFFLINE that it may complete, reaches neither the engine nor the reservation
monitor (R171). -/
theorem State.Becomes.blocks {s t : State} {p : PortId} {x : PortUnit} (h : s.Becomes p x t) :
    t.engine = s.engine ∧ t.monitor = s.monitor ∧ t.config = s.config := by
  by_cases hq : x.QuiesceMet
  · rw [(h.2 hq).2.2]
    exact ⟨rfl, rfl, rfl⟩
  · rw [h.1 hq]
    exact ⟨rfl, rfl, rfl⟩

/-- A conditional write answered LINK_FAILED leaves the bus free again (R112, R113). -/
theorem State.linkFailure_busConsistent {s t : State} {p : PortId} {r : BusAccess} {a : Answer}
    (h : s.BusConsistent) (hh : s.engine.holder = .free) (hp : p ∉ s.engine.waitingList)
    (hb : s.Becomes p ((s.port p).answered a) t) : (s.linkFailure t p r).BusConsistent := by
  have engine : t.engine = s.engine := hb.blocks.1
  have quiet := h.quiet hh
  refine State.busConsistent_of_free rfl ?_ (State.recordHasItsWork_none rfl) (h.2.2.of_sublist ?_ fun q hq => ?_)
  · exact ⟨(congrArg Engine.part engine).trans quiet.part, (congrArg Engine.timer engine).trans quiet.timer,
      (congrArg Engine.extGrant engine).trans quiet.extGrant⟩
  · exact engine ▸ List.Sublist.refl _
  · rw [State.linkFailure_current r hb, if_neg]
    rintro rfl
    exact hp (engine ▸ hq)

theorem State.Chooses.busConsistent {s t : State} (h : s.Chooses t) :
    s.engine.holder = .free → s.BusConsistent → t.BusConsistent := by
  induction h with
  | external he =>
    intro hh hb
    have quiet := hb.quiet hh
    exact ⟨⟨quiet.part, quiet.timer, rfl, he⟩, hb.2.1, hb.2.2⟩
  | nothing => exact fun _ hb => hb
  | starts _ hg hr _ => exact fun hh hb => (hr.fits hg.1 hb hh).busConsistent hb.2.2 (hb.quiet hh).extGrant
  | consumes _ hg hr _ _ => exact fun hh hb => (hr.fits hg.1 hb hh).busConsistent hb.2.2 (hb.quiet hh).extGrant
  | linkFailed _ hg hr hk _ ht _ ih =>
    intro hh hb
    have fits := hr.fits hg.1 hb hh
    have ofAccess : ¬ _ = true := fun hs => by rw [fits.entry hs] at hk; cases hk
    exact ih rfl (State.linkFailure_busConsistent hb hh (fits.access (by simpa using ofAccess)).2 ht)

/-- The choices of one event keep the law of the bus. -/
theorem State.BusConsistent.choose {s : State} (h : s.BusConsistent) : s.choose.BusConsistent := by
  by_cases hh : s.engine.holder = .free
  · exact (State.choose_chooses hh).busConsistent hh h
  · rwa [State.choose_busy hh]

/-! ### The posted-write store (R121 to R123) -/

/-- A posted write that is accepted leaves its port IDLE and no longer on the waiting list. -/
theorem State.accept_busConsistent {s : State} {p : PortId} {a : Access} {adm : Admission} (h : s.BusConsistent)
    (hl : p ∉ s.engine.waitingList) (hc : ∀ a adm, (s.port p).current ≠ .onBus a adm) :
    (s.accept p a adm).BusConsistent := by
  obtain ⟨hold, work, wait⟩ := h
  rw [State.accept_eq]
  refine ⟨hold, fun r hr => ?_, wait.of_sublist (List.Sublist.refl _) fun q hq => ?_⟩
  · obtain ⟨kind, current, part⟩ := work r hr
    refine ⟨kind, fun hs ha => ?_, part⟩
    obtain ⟨b, badm, hb⟩ := current hs ha
    have hq : r.origin ≠ p := fun e => hc b badm (e ▸ hb)
    exact ⟨b, badm, by simpa [hq] using hb⟩
  · have hq : q ≠ p := fun e => hl (e ▸ hq)
    simp [hq]

theorem State.waitingWrite_current {s : State} {p : PortId} {a : Access} {adm : Admission}
    (h : s.waitingWrite p = some (a, adm)) : (s.port p).current = .waiting a adm true := by
  unfold State.waitingWrite at h
  split at h
  · rename_i hc
    split at h
    · cases h
      exact hc
    · cases h
  · cases h

theorem State.BusConsistent.admitWaiter {s : State} (h : s.BusConsistent) : s.admitWaiter.BusConsistent := by
  unfold State.admitWaiter
  split
  · exact h
  · rename_i p _
    split
    · exact h
    · rename_i a adm hw
      obtain ⟨hold, work, wait⟩ := h
      have left : (removePort p s.engine.waitingList).Sublist s.engine.waitingList := List.filter_sublist
      refine State.accept_busConsistent ⟨hold, work, wait.of_sublist left fun _ _ => rfl⟩ ?_ fun b badm hb => ?_
      · simp [removePort]
      · have hb : (s.port p).current = .onBus b badm := hb
        rw [State.waitingWrite_current hw] at hb
        cases hb

/-- An admitted access that has not been offered is offered (R34, R38, R120, R122). -/
theorem State.BusConsistent.offer {s : State} {p : PortId} (h : s.BusConsistent)
    (hp : ¬ (s.port p).current.Offered) (a : Access) (adm : Admission) : (s.offer p a adm).BusConsistent := by
  have absent := h.2.2.not_mem_unoffered hp
  have waiting := h.changesAt hp (s.modifyPort_changesAt p fun u => { u with current := .waiting a adm true })
  unfold State.offer
  split
  · rename_i posted
    split
    · exact (State.accept_busConsistent h absent fun b badm hb => hp (.inr ⟨b, badm, hb⟩)).choose
    · obtain ⟨hold, work, once, wait⟩ := waiting
      refine ⟨hold, work, ?_, fun q hq => ?_⟩
      · exact List.nodup_append.2 ⟨once, List.nodup_singleton p, fun x hx y hy => by
          rw [List.mem_singleton.1 hy]
          rintro rfl
          exact absent hx⟩
      · rcases List.mem_append.1 hq with hq | hq
        · exact wait q hq
        · rw [List.mem_singleton.1 hq]
          exact ⟨a, adm, by simp, posted⟩
  · exact waiting.choose

/-! ### The ending of a part (R106 to R114) -/

/-- The part of record r has ended, and what the event does with the access is still to come: the bus is held for r, whose
work is as the law says. -/
structure State.PartOver (s : State) (r : BusAccess) : Prop where
  holder : s.engine.holder = r.holder
  quiet : s.engine.Quiet
  entry : r.fromStore = true → r.kind = .write
  current : r.fromStore = false → r.abandoned = false → ∃ a adm, (s.port r.origin).current = .onBus a adm
  waiters : s.WaitersWait

theorem State.partInProgress_spec {s : State} {r : BusAccess} {part : BusPart}
    (h : s.partInProgress = some (r, part)) : s.engine.access = some r ∧ s.engine.part = some part := by
  unfold State.partInProgress at h
  split at h
  · cases h
    exact ⟨by assumption, by assumption⟩
  · cases h

/-- While a part is presented, its record's port has the bus, and not the external master (R94, R101, R116). -/
theorem State.BusConsistent.endPart {s : State} {r : BusAccess} {part : BusPart} (h : s.BusConsistent)
    (hp : s.partInProgress = some (r, part)) : (s.modifyEngine Engine.endPart).PartOver r := by
  obtain ⟨ha, hpart⟩ := State.partInProgress_spec hp
  obtain ⟨hold, work, wait⟩ := h
  obtain ⟨entry, current, -⟩ := work r ha
  have held : s.engine.holder = r.holder ∧ s.engine.extGrant = false := by
    unfold State.HolderHasThePart at hold
    rcases hh : s.engine.holder with _ | p | p | _ <;> rw [hh] at hold <;> dsimp only at hold
    · rw [hold.1] at hpart
      cases hpart
    · obtain ⟨-, extGrant, r', ha', -, rfl, hs⟩ := hold
      obtain rfl : r = r' := Option.some.inj (ha.symm.trans ha')
      exact ⟨by simp [BusAccess.holder, hs], extGrant⟩
    · obtain ⟨-, extGrant, r', ha', -, rfl, hs⟩ := hold
      obtain rfl : r = r' := Option.some.inj (ha.symm.trans ha')
      exact ⟨by simp [BusAccess.holder, hs], extGrant⟩
    · rw [hold.1] at hpart
      cases hpart
  exact ⟨held.1, ⟨rfl, rfl, held.2⟩, entry, current, wait⟩

theorem State.PartOver.of_bus {s t : State} {r : BusAccess} (h : s.PartOver r) (e : t.bus = s.bus) : t.PartOver r := by
  obtain ⟨holder, quiet, entry, current, waiters⟩ := h
  have he := State.bus_engine e
  refine ⟨he ▸ holder, he ▸ quiet, entry, ?_, ?_⟩
  · simpa only [State.bus_current e] using current
  · exact waiters.of_sublist (by rw [he]) fun q _ => State.bus_current e q

/-- The record's counts and assembled data may change, and be kept (R107, R109). -/
theorem State.PartOver.record {s : State} {r : BusAccess} (h : s.PartOver r) (r' : BusAccess)
    (origin : r'.origin = r.origin) (fromStore : r'.fromStore = r.fromStore) (kind : r'.kind = r.kind)
    (abandoned : r'.abandoned = r.abandoned) : s.PartOver r' := by
  obtain ⟨holder, quiet, entry, current, waiters⟩ := h
  refine ⟨by rw [holder]; simp [BusAccess.holder, origin, fromStore], quiet, ?_, ?_, waiters⟩
  · rwa [fromStore, kind]
  · rwa [fromStore, abandoned, origin]

theorem State.PartOver.keepAccess {s : State} {r : BusAccess} (h : s.PartOver r) (r' : BusAccess) :
    (s.keepAccess r').PartOver r :=
  ⟨h.holder, ⟨h.quiet.part, h.quiet.timer, h.quiet.extGrant⟩, h.entry, h.current, h.waiters⟩

/-- The next part starts in the same event (R105, R107). -/
theorem State.PartOver.startPart {s : State} {r : BusAccess} (h : s.PartOver r) (ha : r.abandoned = false) :
    (s.keepAccess r).startPart.BusConsistent := by
  obtain ⟨holder, quiet, entry, current, waiters⟩ := h
  refine ⟨?_, fun r' hr' => ?_, waiters⟩
  · have holder' : (s.keepAccess r).startPart.engine.holder = r.holder := holder
    have extGrant : (s.keepAccess r).startPart.engine.extGrant = false := quiet.extGrant
    rcases hs : r.fromStore with _ | _ <;> simp only [BusAccess.holder, hs] at holder' <;>
      simp [State.HolderHasThePart, holder', extGrant] <;>
      simp [State.startPart, State.presentPart, State.keepAccess, nextPart_eq, hs]
  · obtain rfl : ({ r with retryCount := 0, retryLimit := s.config.retryLimit } : BusAccess) = r' :=
      Option.some.inj hr'
    exact ⟨entry, fun hs _ => current hs ha, fun hx => absurd (ha.symm.trans hx) nofun⟩

/-- The finish of a non-posted access frees the bus and leaves its port IDLE (R112). -/
theorem State.PartOver.finishAccess {s : State} {r : BusAccess} (h : s.PartOver r) (hs : r.fromStore = false)
    (ha : r.abandoned = false) (a : Answer) (f : Option FaultInfo) : (s.finishAccess r a f).BusConsistent := by
  obtain ⟨b, adm, hc⟩ := h.current hs ha
  have absent := h.waiters.not_mem_onBus hc
  obtain ⟨engine, elsewhere⟩ := s.endCurrent_changesAt r.origin a f
  have finished : (s.finishAccess r a f).engine = s.engine.dropAccess := congrArg Engine.dropAccess engine
  refine State.busConsistent_of_free (by rw [finished]; rfl) ?_ (State.recordHasItsWork_none (by rw [finished]; rfl)) ?_
  · rw [finished]
    exact ⟨h.quiet.part, h.quiet.timer, h.quiet.extGrant⟩
  · refine h.waiters.of_sublist (by rw [finished]; exact List.Sublist.refl _) fun q hq => elsewhere q ?_
    rintro rfl
    exact absent (by rw [finished] at hq; exact hq)

/-- The record of work that leaves no trace at a port is dropped (R114, R127). -/
theorem State.PartOver.dropAccess {s : State} {r : BusAccess} (h : s.PartOver r) (store : List StoreEntry) :
    (s.modifyEngine fun e => ({ e with store := store } : Engine).dropAccess).BusConsistent :=
  State.busConsistent_of_free rfl ⟨h.quiet.part, h.quiet.timer, h.quiet.extGrant⟩ (State.recordHasItsWork_none rfl)
    h.waiters

theorem State.PartOver.finishEntry {s : State} {r : BusAccess} (h : s.PartOver r) :
    (s.finishEntry r).BusConsistent := by
  have dropped := (h.dropAccess (removeOldest r.origin s.engine.store)).choose
  have reported : ∀ (u : State) (reports : Vector Nat 6), u.BusConsistent →
      State.BusConsistent { u with links := { u.links with reports := reports } } := fun u _ hu => hu.of_bus rfl
  exact (reported _ _ (dropped.of_bus (State.engineSubtract_bus _ r.window r.epoch))).admitWaiter.choose

theorem State.PartOver.endAbandoned {s : State} {r : BusAccess} (h : s.PartOver r) :
    (s.endAbandoned r).BusConsistent :=
  ((h.of_bus (s.engineSubtract_bus r.window r.epoch)).dropAccess s.engine.store).choose

theorem State.PartOver.failAccess {s : State} {r : BusAccess} (h : s.PartOver r) (ha : r.abandoned = false)
    (k : FaultKind) : (s.failAccess r k).BusConsistent := by
  unfold State.failAccess
  split
  · split
    · exact h.finishEntry
    · exact (h.of_bus (s.routeDeferred_bus _ _)).finishEntry
  · rename_i hs
    split <;> exact (h.finishAccess (by simpa using hs) ha _ _).choose

theorem State.PartOver.completeAccess {s : State} {r : BusAccess} (h : s.PartOver r) (ha : r.abandoned = false) :
    (s.completeAccess r).BusConsistent := by
  unfold State.completeAccess
  split
  · exact h.finishEntry
  · rename_i hs
    have hs : r.fromStore = false := by simpa using hs
    split
    · exact (h.finishAccess hs ha _ _).choose
    · dsimp only
      split
      · exact ((h.of_bus (s.reportLinkedRead_bus _ _ _ _)).finishAccess hs ha _ _).choose
      · exact (h.finishAccess hs ha _ _).choose

/-- The bus is released for a retry, the record kept (R109). -/
theorem State.PartOver.releaseForRetry {s : State} {r : BusAccess} (h : s.PartOver r) (ha : r.abandoned = false) :
    (s.releaseForRetry r).BusConsistent := by
  refine State.BusConsistent.choose (State.busConsistent_of_free rfl
    ⟨h.quiet.part, h.quiet.timer, h.quiet.extGrant⟩ (fun r' hr' => ?_) h.waiters)
  obtain rfl : r = r' := Option.some.inj hr'
  exact ⟨h.entry, h.current, fun hx => absurd (ha.symm.trans hx) nofun⟩

theorem State.PartOver.retryPart {s : State} {r : BusAccess} (h : s.PartOver r) (ha : r.abandoned = false) :
    (s.retryPart r).BusConsistent := by
  have raised := h.record { r with retryCount := r.retryCount + 1 } rfl rfl rfl rfl
  unfold State.retryPart
  dsimp only
  split
  · exact raised.releaseForRetry ha
  · exact raised.failAccess ha _

theorem State.PartOver.partCompleted {s : State} {r : BusAccess} (h : s.PartOver r) (ha : r.abandoned = false) :
    (s.partCompleted r).BusConsistent := by
  unfold State.partCompleted
  split
  · exact h.startPart ha
  · exact (h.keepAccess r).completeAccess ha

end Sys2Proof.Machine
end

section
/-! Every command, and a tick of the timebase, keeps the law of the bus: the commands that reach an access which has not
been offered, the events of the bus, and the resets. -/

namespace Sys2Proof.Machine

/-! ### Accesses that have not been offered -/

theorem CurrentAccess.idle_unoffered : ¬ CurrentAccess.idle.Offered := by
  rintro (⟨_, _, h⟩ | ⟨_, _, h⟩) <;> cases h

theorem CurrentAccess.walking_unoffered (a : Access) (sent : Bool) : ¬ (CurrentAccess.walking a sent).Offered := by
  rintro (⟨_, _, h⟩ | ⟨_, _, h⟩) <;> cases h

theorem CurrentAccess.parked_unoffered (a : Access) (w : WindowId) (x : Timer) :
    ¬ (CurrentAccess.parked a w x).Offered := by
  rintro (⟨_, _, h⟩ | ⟨_, _, h⟩) <;> cases h

theorem CurrentAccess.waiting_unoffered (a : Access) (adm : Admission) :
    ¬ (CurrentAccess.waiting a adm false).Offered := by
  rintro (⟨_, _, h⟩ | ⟨_, _, h⟩) <;> cases h

/-! ### Arrivals -/

theorem State.issue_bus (s : State) (p : PortId) : (s.issue p).bus = s.bus := by
  unfold State.issue
  dsimp only
  split
  · split
    · simp
    · unfold State.sendRequest
      split <;> simp
  · simp

theorem State.accessSlot_bus (s : State) (p : PortId) (a : Access) : (s.accessSlot p a).bus = s.bus := by
  unfold State.accessSlot
  split
  · simp
  · split
    · unfold State.writeSlot
      split
      · simp
      · simp [State.issue_bus]
      · simp
    · simp

theorem State.startWalk_changesAt (s : State) (p : PortId) (a : Access) : s.ChangesAt (s.startWalk p a) p := by
  unfold State.startWalk
  split
  · exact s.modifyPort_changesAt p _
  · exact (s.modifyPort_changesAt p _).trans (.of_bus p (State.sendToTable_bus _ p _))

theorem State.hitEntry_changesAt (s : State) (p : PortId) (a : Access) (i : Fin 4) (c : Copy) :
    s.ChangesAt (s.hitEntry p a i c) p := by
  have touched := s.modifyPort_changesAt p fun u => { u with lookaside := (s.port p).lookaside.touch i }
  unfold State.hitEntry
  dsimp only
  split
  · exact touched.trans (State.endCurrent_changesAt _ p _ _)
  · exact (touched.trans (State.modifyPort_changesAt _ p _)).trans
      (.of_bus p ((State.sendToTable_bus _ p _).trans (State.dropForLinkedRead_bus _ p _)))

theorem State.checkArrival_changesAt (s : State) (p : PortId) (a : Access) : s.ChangesAt (s.checkArrival p a) p := by
  unfold State.checkArrival State.lookUp
  split
  · exact s.endCurrent_changesAt p _ _
  · split
    · split
      · exact s.modifyPort_changesAt p _
      · exact .of_bus p (s.accessSlot_bus p a)
    · split
      · exact s.hitEntry_changesAt p a _ _
      · exact s.startWalk_changesAt p a

theorem State.arrive_changesAt (s : State) (p : PortId) (a : Access) : s.ChangesAt (s.arrive p a) p := by
  have answered := s.modifyPort_changesAt p fun u => { u with answer := some .error }
  have slot := State.ChangesAt.of_bus p (s.accessSlot_bus p a)
  unfold State.arrive
  split
  · exact answered
  · split
    · exact answered
    · split
      · exact slot
      · exact answered
    · split
      · exact slot
      · exact answered
    · exact s.checkArrival_changesAt p a

theorem State.BusConsistent.presentAccess {s : State} (h : s.BusConsistent) (p : PortId) (a : Access) :
    (s.presentAccess p a).BusConsistent := by
  unfold State.presentAccess
  split
  · rename_i hc
    have hc : (s.port p).current = .idle := by simpa using hc
    exact h.changesAt (hc ▸ CurrentAccess.idle_unoffered)
      ((s.modifyPort_changesAt p _).trans (State.arrive_changesAt _ p a))
  · exact h

/-! ### What the ports take from the table -/

section
variable {s : State} (h : s.BusConsistent) (p : PortId)
include h

theorem State.BusConsistent.discardAnswer : (s.discardAnswer p).BusConsistent := by
  have cleared : (s.setStaleWalk p false).BusConsistent := h.of_bus (s.modifyPort_bus p _ rfl)
  unfold State.discardAnswer
  dsimp only
  split
  · rename_i a hc
    refine cleared.changesAt (p := p) ?_
      ((State.modifyPort_changesAt _ p _).trans (.of_bus p (State.sendToTable_bus _ p _)))
    simpa [hc] using CurrentAccess.walking_unoffered a false
  · exact cleared

theorem State.BusConsistent.takeAdmitted (c : Copy) : (s.takeAdmitted p c).BusConsistent := by
  unfold State.takeAdmitted
  split
  · exact (h.discardAnswer p).of_bus (State.sendToTable_bus _ p _)
  · split
    · rename_i a hc
      dsimp only
      refine State.BusConsistent.offer (h.changesAt (p := p) (hc ▸ CurrentAccess.walking_unoffered a true) ?_) ?_ a _
      · exact ((s.modifyPort_changesAt p _).trans (State.modifyPort_changesAt _ p _)).trans
          (.of_bus p (State.dropForLinkedRead_bus _ p _))
      · rw [State.bus_current (State.dropForLinkedRead_bus _ p _)]
        simpa using CurrentAccess.waiting_unoffered a (c.admission a.toAccessHead)
    · exact h

theorem State.BusConsistent.takeDenied (c : Copy) (k : FaultKind) : (s.takeDenied p c k).BusConsistent := by
  unfold State.takeDenied
  split
  · exact h.discardAnswer p
  · split
    · rename_i a hc
      exact h.changesAt (hc ▸ CurrentAccess.walking_unoffered a true)
        ((s.modifyPort_changesAt p _).trans (State.endCurrent_changesAt _ p _ _))
    · exact h

theorem State.BusConsistent.takeNoWindow : (s.takeNoWindow p).BusConsistent := by
  unfold State.takeNoWindow
  split
  · exact h.discardAnswer p
  · split
    · rename_i a hc
      exact h.changesAt (hc ▸ CurrentAccess.walking_unoffered a true) (s.endCurrent_changesAt p _ _)
    · exact h

theorem State.BusConsistent.takePark (w : WindowId) : (s.takePark p w).BusConsistent := by
  unfold State.takePark
  split
  · exact h.discardAnswer p
  · split
    · rename_i a hc
      exact h.changesAt (hc ▸ CurrentAccess.walking_unoffered a true) (s.modifyPort_changesAt p _)
    · exact h

theorem State.BusConsistent.takeRelease (w : WindowId) : (s.takeRelease p w).BusConsistent := by
  unfold State.takeRelease
  split
  · rename_i a v x hc
    split
    · exact h.changesAt (hc ▸ CurrentAccess.parked_unoffered a v x) (s.startWalk_changesAt p a)
    · exact h
  · exact h

theorem State.BusConsistent.takeRetire (w : WindowId) : (s.takeRetire p w).BusConsistent := by
  unfold State.takeRetire
  split
  · rename_i a v x hc
    split
    · exact h.changesAt (hc ▸ CurrentAccess.parked_unoffered a v x) (s.endCurrent_changesAt p _ _)
    · exact h
  · exact h

theorem State.BusConsistent.offerAdded : (s.offerAdded p).BusConsistent := by
  unfold State.offerAdded
  split
  · rename_i a adm hc
    exact h.offer (hc ▸ CurrentAccess.waiting_unoffered a adm) a adm
  · exact h

end

theorem CurrentAccess.expired_unoffered {c : CurrentAccess} (h : c.expired = true) : ¬ c.Offered := by
  rcases c with _ | _ | ⟨a, w, x⟩ | _ | _
  case parked => exact CurrentAccess.parked_unoffered a w x
  all_goals exact absurd h nofun

/-! ### The events of the bus -/

theorem State.terminated_part {s : State} {n : Nat} {r : BusAccess} {part : BusPart}
    (h : s.terminated n = some (r, part)) : s.partInProgress = some (r, part) := by
  unfold State.terminated at h
  split at h
  · exact h
  · cases h

theorem State.timedOut_part {s : State} {r : BusAccess} {part : BusPart} (h : s.timedOut = some (r, part)) :
    s.partInProgress = some (r, part) := by
  unfold State.timedOut at h
  split at h
  · exact h
  · cases h

theorem execPartAck_busConsistent {lanes : Word} {n : Nat} {s t : State} (h : execPartAck lanes s n = .next t)
    (hs : s.BusConsistent) : t.BusConsistent := by
  cases h
  split
  · exact hs
  · rename_i r part hp
    have ended := (hs.endPart (State.terminated_part hp)).of_bus (State.reportPart_bus _ part)
    dsimp only
    split
    · exact ended.endAbandoned
    · rename_i ha
      have ha : r.abandoned = false := by simpa using ha
      exact (ended.record (r.advance part lanes) rfl rfl rfl rfl).partCompleted ha

theorem execPartErr_busConsistent {n : Nat} {s t : State} (h : execPartErr s n = .next t) (hs : s.BusConsistent) :
    t.BusConsistent := by
  cases h
  split
  · exact hs
  · rename_i r part hp
    have ended := hs.endPart (State.terminated_part hp)
    dsimp only
    split
    · exact ended.endAbandoned
    · rename_i ha
      exact ended.failAccess (by simpa using ha) _

theorem execPartRty_busConsistent {n : Nat} {s t : State} (h : execPartRty s n = .next t) (hs : s.BusConsistent) :
    t.BusConsistent := by
  cases h
  split
  · exact hs
  · rename_i r part hp
    have ended := hs.endPart (State.terminated_part hp)
    dsimp only
    split
    · exact ended.endAbandoned
    · rename_i ha
      exact ended.retryPart (by simpa using ha)

theorem execResponseTimerExpiry_busConsistent {s t : State} (h : execResponseTimerExpiry s = .next t)
    (hs : s.BusConsistent) : t.BusConsistent := by
  cases h
  split
  · exact hs
  · rename_i r part hp
    have ended := hs.endPart (State.timedOut_part hp)
    dsimp only
    split
    · exact ended.endAbandoned
    · rename_i ha
      exact ended.failAccess (by simpa using ha) _

theorem execRetryWaitExpiry_busConsistent {s t : State} (h : execRetryWaitExpiry s = .next t)
    (hs : s.BusConsistent) : t.BusConsistent := by
  cases h
  split
  · have released : (s.modifyEngine Engine.releaseWaiters).BusConsistent := hs
    exact released.choose
  · exact hs

/-- The external master asks while it does not hold the bus, or holds it already (R97, R98). -/
theorem execExternalRequest_busConsistent {s t : State} (h : execExternalRequest s = .next t) (hs : s.BusConsistent) :
    t.BusConsistent := by
  cases h
  split
  · exact hs
  · refine State.BusConsistent.choose ⟨?_, hs.2.1, hs.2.2⟩
    have hold := hs.1
    unfold State.HolderHasThePart at hold ⊢
    rcases hh : s.engine.holder with _ | _ | _ | _ <;> rw [hh] at hold <;> simp only [State.modifyEngine, hh]
    case external => exact ⟨hold.1, hold.2.1, hold.2.2.1, trivial⟩
    all_goals exact hold

theorem execExternalWithdraw_busConsistent {s t : State} (h : execExternalWithdraw s = .next t)
    (hs : s.BusConsistent) : t.BusConsistent := by
  have hold := hs.1
  have same : s.engine.withdrawExternal.access = s.engine.access ∧ s.engine.withdrawExternal.part = s.engine.part ∧
      s.engine.withdrawExternal.waitingList = s.engine.waitingList := by
    unfold Engine.withdrawExternal
    split <;> exact ⟨rfl, rfl, rfl⟩
  have withdrawn : (s.modifyEngine Engine.withdrawExternal).BusConsistent := by
    obtain ⟨access, part, waitingList⟩ := same
    refine ⟨?_, ?_, hs.2.2.of_sublist (by simp [waitingList]) fun _ _ => rfl⟩
    · unfold State.HolderHasThePart at hold ⊢
      rcases hh : s.engine.holder with _ | _ | _ | _ <;> rw [hh] at hold <;>
        simp only [State.modifyEngine, Engine.withdrawExternal, hh]
      case external => exact ⟨hold.1, hold.2.1, rfl⟩
      all_goals exact hold
    · have work := hs.2.1
      unfold State.RecordHasItsWork at work ⊢
      simpa [access, part] using work
  cases h
  split
  · exact withdrawn.choose
  · exact withdrawn

/-! ### Resets -/

theorem removePort_sublist (p : PortId) (l : List PortId) : (removePort p l).Sublist l := List.filter_sublist

/-- The port of an access on the bus is reset: its record goes with it, or is abandoned while its part runs (R114). -/
theorem State.BusConsistent.abandonOnBus {s : State} (h : s.BusConsistent) {p : PortId} {a : Access} {adm : Admission}
    (hc : (s.port p).current = .onBus a adm) : ((s.setCurrent p .idle).abandonOnBus p).BusConsistent := by
  obtain ⟨hold, work, wait⟩ := h
  have absent := wait.not_mem_onBus hc
  have waiters : ∀ t : State, t.engine.waitingList = s.engine.waitingList → t.port = (s.setCurrent p .idle).port →
      t.WaitersWait := fun t ht hp => wait.of_sublist (by rw [ht]) fun q hq => by
    have hqp : q ≠ p := by
      rintro rfl
      exact absent (ht ▸ hq)
    simp [hp, hqp]
  have elsewhere : ∀ r, s.engine.access = some r → r.fromStore = false → r.abandoned = false → r.origin ≠ p →
      ∃ b badm, ((s.setCurrent p .idle).port r.origin).current = .onBus b badm := fun r hr hs ha ho => by
    simpa [ho] using (work r hr).2.1 hs ha
  unfold State.abandonOnBus
  split
  · rename_i hnone
    exact ⟨hold, State.recordHasItsWork_none hnone, waiters _ rfl rfl⟩
  · rename_i r hr
    have hr : s.engine.access = some r := hr
    split
    · split
      · rename_i part hpart
        have hpart : s.engine.part = some part := hpart
        refine ⟨?_, fun r' hr' => ?_, waiters _ rfl rfl⟩
        · unfold State.HolderHasThePart at hold ⊢
          rcases hh : s.engine.holder with _ | _ | _ | _ <;> rw [hh] at hold <;>
            simp only [State.setCurrent_eq, State.modifyEngine, State.modifyPort_engine, hh]
          case portAccess | storeEntry =>
            obtain ⟨timer, extGrant, r', hr', hpart', origin, fromStore⟩ := hold
            obtain rfl : r = r' := Option.some.inj (hr.symm.trans hr')
            exact ⟨timer, extGrant, _, rfl, hpart', origin, fromStore⟩
          all_goals exact hold
        · obtain rfl : ({ r with abandoned := true } : BusAccess) = r' := Option.some.inj hr'
          exact ⟨(work r hr).1, fun _ hx => absurd hx nofun, fun _ => by simp [hpart]⟩
      · rename_i hpart
        have hpart : s.engine.part = none := hpart
        refine State.BusConsistent.choose ⟨?_, State.recordHasItsWork_none rfl, waiters _ rfl rfl⟩
        unfold State.HolderHasThePart at hold ⊢
        rcases hh : s.engine.holder with _ | _ | _ | _ <;> rw [hh] at hold <;>
          simp only [State.setCurrent_eq, State.modifyEngine, State.engineSubtract_engine, State.modifyPort_engine, hh]
        case portAccess | storeEntry =>
          obtain ⟨-, -, _, -, hpart', -⟩ := hold
          rw [hpart] at hpart'
          cases hpart'
        all_goals exact hold
    · rename_i hx
      refine ⟨hold, fun r' hr' => ?_, waiters _ rfl rfl⟩
      obtain rfl : r = r' := Option.some.inj (hr.symm.trans hr')
      refine ⟨(work r hr).1, fun hs ha => elsewhere r hr hs ha fun ho => hx ?_, (work r hr).2.2⟩
      simp [BusAccess.isCurrentOf, ho, hs, ha]

/-- A port reset abandons the current access, whatever its stage (R174). -/
theorem State.BusConsistent.abandonCurrent {s : State} (h : s.BusConsistent) (p : PortId) :
    (s.abandonCurrent p).BusConsistent := by
  have idle := s.modifyPort_changesAt p fun u => { u with current := .idle }
  have unoffered : ¬ (s.port p).current.Offered → (s.setCurrent p .idle).BusConsistent :=
    fun hp => h.changesAt hp idle
  unfold State.abandonCurrent
  dsimp only
  split <;> rename_i hc
  · exact unoffered (hc ▸ CurrentAccess.idle_unoffered)
  · exact (unoffered (hc ▸ CurrentAccess.walking_unoffered _ _)).of_bus (State.modifyPort_bus _ p _ rfl)
  · exact unoffered (hc ▸ CurrentAccess.walking_unoffered _ _)
  · exact unoffered (hc ▸ CurrentAccess.parked_unoffered _ _ _)
  · obtain ⟨hold, work, wait⟩ := h
    have work' : (s.setCurrent p .idle).RecordHasItsWork :=
      work.changesAt idle fun a adm hb => by rw [hc] at hb; cases hb
    refine State.BusConsistent.of_bus ?_ (State.sendToTable_bus _ p _)
    refine ⟨hold, work', wait.of_sublist (removePort_sublist p _) fun q hq => ?_⟩
    have hqp : q ≠ p := by
      rintro rfl
      simp [removePort] at hq
    simp [hqp]
  · exact h.abandonOnBus hc

theorem State.BusConsistent.resetPort {s : State} (h : s.BusConsistent) (p : PortId) :
    (s.resetPort p).BusConsistent := by
  refine (h.abandonCurrent p).of_bus ?_
  rw [State.resetPort, State.evaluateQuiesce_bus, State.clearSlot_bus, State.setReservation_bus,
    State.modifyPort_bus _ _ _ rfl]

theorem State.deviceReset_busConsistent (s : State) (st : Straps) : (s.deviceReset st).BusConsistent :=
  State.busConsistent_of_free rfl ⟨rfl, rfl, rfl⟩ (State.recordHasItsWork_none rfl) ⟨List.nodup_nil, nofun⟩

theorem execDeviceReset_busConsistent {st : Straps} {s t : State} (h : execDeviceReset st s = .next t) :
    t.BusConsistent := by
  rw [← Host.Outcome.next.inj h]
  have held : ∀ (ps : List PortId) (u : State), u.BusConsistent → (ps.foldl State.takeHeldReset u).BusConsistent := by
    intro ps
    induction ps with
    | nil => exact fun _ hu => hu
    | cons p ps ih =>
      refine fun u hu => ih _ ?_
      unfold State.takeHeldReset
      split
      · exact hu.resetPort p
      · exact hu
  exact (held allPorts _ (s.deviceReset_busConsistent st)).choose

/-! ### Every command -/

theorem exec_busConsistent {i : Instr} {s t : State} (h : exec i s = .next t) (hs : s.BusConsistent) :
    t.BusConsistent := by
  cases i with
  | accessArrival p a => cases h; exact hs.presentAccess _ _
  | registerWrite p word value => cases h; exact hs.presentAccess _ _
  | acknowledge p => cases h; exact hs.presentAccess _ _
  | walk => exact hs.of_bus (execWalk_bus h)
  | admitAnswer p =>
    cases h
    split
    · exact State.BusConsistent.takeAdmitted (hs.of_bus (s.setToPort_bus p _)) p _
    · exact hs
  | denyAnswer p =>
    cases h
    split
    · exact State.BusConsistent.takeDenied (hs.of_bus (s.setToPort_bus p _)) p _ _
    · exact hs
  | noneAnswer p =>
    cases h
    split
    · exact State.BusConsistent.takeNoWindow (hs.of_bus (s.setToPort_bus p _)) p
    · exact hs
  | parkAnswer p =>
    cases h
    split
    · exact State.BusConsistent.takePark (hs.of_bus (s.setToPort_bus p _)) p _
    · exact hs
  | addition p =>
    cases h
    split
    · split
      · exact hs
      · exact State.BusConsistent.offerAdded (hs.of_bus (by simp)) p
    · exact hs
  | subtraction sender => exact hs.of_bus (execSubtraction_bus h)
  | acknowledgement p => exact hs.of_bus (execAcknowledgement_bus h)
  | offlineNotice p => exact hs.of_bus (execOfflineNotice_bus h)
  | onlineNotice p => exact hs.of_bus (execOnlineNotice_bus h)
  | shootDown p => exact hs.of_bus (execShootDown_bus h)
  | releaseNotice p =>
    cases h
    split
    · exact State.BusConsistent.takeRelease (hs.of_bus (s.setToPort_bus p _)) p _
    · exact hs
  | retireNotice p =>
    cases h
    split
    · exact State.BusConsistent.takeRetire (hs.of_bus (s.setToPort_bus p _)) p _
    · exact hs
  | parkTimerExpiry p =>
    cases h
    split
    · rename_i hx
      exact hs.changesAt (CurrentAccess.expired_unoffered hx) (s.endCurrent_changesAt p _ _)
    · exact hs
  | define => cases h; exact hs.of_bus (s.windowRequest_bus _ _ fun t p c w => t.takeDefine_bus p c w)
  | amend => cases h; exact hs.of_bus (s.windowRequest_bus _ _ fun t p c w => t.takeAmend_bus p c w)
  | enable => cases h; exact hs.of_bus (s.windowRequest_bus _ _ fun t p c w => t.takeEnable_bus p c w)
  | hold => cases h; exact hs.of_bus (s.windowRequest_bus _ _ fun t p c w => t.takeHold_bus p c w)
  | release => cases h; exact hs.of_bus (s.windowRequest_bus _ _ fun t p c w => t.takeReleaseRequest_bus p c w)
  | retire => cases h; exact hs.of_bus (s.windowRequest_bus _ _ fun t p c w => t.takeRetireRequest_bus p c w)
  | setRights => cases h; exact hs.of_bus (s.windowRequest_bus _ _ fun t p c w => t.takeSetRights_bus p c w)
  | queryWindow => cases h; exact hs.of_bus (s.onTableRequest_bus _ _ fun p c t => t.takeQueryWindow_bus p c)
  | portOnline i => cases h; exact hs.of_bus (s.onPortRequest_bus _ i _ fun q c t => t.takeOnline_bus i q c)
  | portOffline i => cases h; exact hs.of_bus (s.onPortRequest_bus _ i _ fun q c t => t.takeOffline_bus i q c)
  | fence i => cases h; exact hs.of_bus (s.onPortRequest_bus _ i _ fun q c t => t.takeFence_bus i q c)
  | unfence i => cases h; exact hs.of_bus (s.onPortRequest_bus _ i _ fun q c t => t.takeUnfence_bus i q c)
  | clearFault i => cases h; exact hs.of_bus (s.onPortRequest_bus _ i _ fun q c t => t.takeClearFault_bus i q c)
  | queryPort i => cases h; exact hs.of_bus (s.onPortRequest_bus _ i _ fun q c t => t.takeQueryPort_bus i q c)
  | setParam i => cases h; exact hs.of_bus (s.onRequest_bus _ i _ fun c t => t.takeSetParam_bus i c)
  | clearDeviceFault i => cases h; exact hs.of_bus (s.onRequest_bus _ i _ fun c t => t.takeClearDeviceFault_bus i c)
  | queryDevice i => cases h; exact hs.of_bus (s.onRequest_bus _ i _ fun c t => t.takeQueryDevice_bus i c)
  | resultTaken p number result => cases h; exact hs.of_bus (s.postResult_bus _ _ _)
  | partAck lanes number => exact execPartAck_busConsistent h hs
  | partErr number => exact execPartErr_busConsistent h hs
  | partRty number => exact execPartRty_busConsistent h hs
  | responseTimerExpiry => exact execResponseTimerExpiry_busConsistent h hs
  | retryWaitExpiry => exact execRetryWaitExpiry_busConsistent h hs
  | externalRequest => exact execExternalRequest_busConsistent h hs
  | externalWithdraw => exact execExternalWithdraw_busConsistent h hs
  | externalWriteAck addr size => exact hs.of_bus (execExternalWriteAck_bus (z := size) h)
  | entryFinishedReport p => exact hs.of_bus (execEntryFinishedReport_bus h)
  | portReset p =>
    cases h
    split
    · exact hs
    · exact State.BusConsistent.resetPort (hs.of_bus (s.setResetInput_bus p true)) p
  | deviceReset straps => exact execDeviceReset_busConsistent h
  | portResetRelease p => cases h; exact hs.of_bus (s.setResetInput_bus p false)

/-- A tick counts timers, and moves no access from its stage (R41, R115). -/
theorem State.BusConsistent.tick {s : State} (h : s.BusConsistent) : s.tick.BusConsistent := by
  have current : ∀ p, (s.tick.port p).current = (s.port p).current.tick := fun p => by
    simp [State.tick, State.tickTimers, State.port]
  have onBus : ∀ {c : CurrentAccess} {a adm}, c = .onBus a adm → c.tick = .onBus a adm := by
    rintro _ a adm rfl
    rfl
  have waiting : ∀ {c : CurrentAccess} {a adm}, c = .waiting a adm true → c.tick = .waiting a adm true := by
    rintro _ a adm rfl
    rfl
  have timer : s.engine.timer.map Timer.tick = none ↔ s.engine.timer = none := Option.map_eq_none_iff
  obtain ⟨hold, work, once, wait⟩ := h
  refine ⟨?_, fun r hr => ?_, once, fun p hp => ?_⟩
  · unfold State.HolderHasThePart at hold ⊢
    rcases hh : s.engine.holder with _ | _ | _ | _ <;> rw [hh] at hold <;>
      simp only [State.tick, State.tickTimers, hh, ne_eq, timer] <;> exact hold
  · obtain ⟨entry, access, part⟩ := work r hr
    refine ⟨entry, fun hs ha => ?_, part⟩
    obtain ⟨a, adm, hc⟩ := access hs ha
    exact ⟨a, adm, (current _).trans (onBus hc)⟩
  · obtain ⟨a, adm, hc, posted⟩ := wait p hp
    exact ⟨a, adm, (current p).trans (waiting hc), posted⟩

/-- Settles O57: every command leaves the law as it was or re-establishes it, at the end of a part through
`State.PartOver`, and at a free bus through the arbiter's choices (`State.Chooses.busConsistent`). -/
theorem busKeepsConsistent : Obligations.BusKeepsConsistent := by
  intro s t hs h
  unfold step at h
  split at h
  · cases h
    exact hs.tick
  · exact exec_busConsistent h (hs.of_bus rfl)

end Sys2Proof.Machine
end

section
/-! The grant of one port by the choices of an event, as an equation for each outcome (R98, R99, R101, R113, R139), the
external master's turns (R97, R116, R117), and the retry of a part (R96, R109). -/

namespace Sys2Proof.Machine

/-! ### The record of a grant -/

theorem State.OldestEntry.unique {s : State} {p : PortId} {e e' : StoreEntry} {before after before' after' : List StoreEntry}
    (h : s.OldestEntry p e before after) (h' : s.OldestEntry p e' before' after') : e = e' :=
  Option.some.inj ((State.oldestEntry_of h).symm.trans (State.oldestEntry_of h'))

theorem State.OldestEntry.not_noEntry {s : State} {p : PortId} {e : StoreEntry} {before after : List StoreEntry}
    (h : s.OldestEntry p e before after) : ¬ s.NoEntry p :=
  fun hn => hn e (by rw [h.1]; simp) h.2.1

/-- A port is granted with one record, and one stage of its access. -/
theorem State.GrantRecord.unique {s : State} {p : PortId} {r r' : BusAccess} {c c' : CurrentAccess}
    (h : s.GrantRecord p r c) (h' : s.GrantRecord p r' c') : r = r' ∧ c = c' := by
  rcases h with ⟨ha, rfl⟩ | ⟨ha, e, _, _, ho, rfl, rfl⟩ | ⟨ha, hn, a, adm, ho, rfl, rfl⟩ <;>
    rcases h' with ⟨ha', rfl⟩ | ⟨ha', e', _, _, ho', rfl, rfl⟩ | ⟨ha', hn', a', adm', ho', rfl, rfl⟩
  case inl.inl => exact ⟨Option.some.inj (ha.symm.trans ha'), rfl⟩
  case inr.inl.inr.inl =>
    obtain rfl := ho.unique ho'
    exact ⟨rfl, rfl⟩
  case inr.inr.inr.inr =>
    have hc := ho.1.symm.trans ho'.1
    cases hc
    exact ⟨rfl, rfl⟩
  case inr.inl.inr.inr => exact absurd hn' ho.not_noEntry
  case inr.inr.inr.inl => exact absurd hn ho'.not_noEntry
  all_goals exact absurd (ha.symm.trans ha') nofun

/-- A kept record, and a store entry, are granted while their port's access stays as it is (R101). -/
theorem State.started_same (s : State) (p : PortId) (r : BusAccess) :
    s.started p r (s.port p).current = { s with engine := s.grantedEngine p r } := by
  have same : vput s.ports p { s.port p with current := (s.port p).current } = s.ports := vput_self _ _
  rw [State.started, same]

/-! ### The choices of an event, where one port is granted -/

/-- Nothing competes for the bus, and the choices leave it free (R98). -/
theorem State.choose_nothing {s : State} (he : s.engine.extRequest = false) (h : ∀ q, ¬ s.Competes q) :
    s.choose = s := by
  unfold State.choose
  split
  · exact State.arbitrate_idle he (State.chosenPort_none_iff.2 fun q hq => h q hq.1) 7
  · rfl

section
variable {s : State} {p : PortId} {r : BusAccess} {c : CurrentAccess} (hh : s.engine.holder = .free)
  (he : s.engine.extRequest = false) (hg : s.GrantsFirst p) (hr : s.GrantRecord p r c)
include hh he hg hr

theorem State.choose_starts (hk : r.kind ≠ .conditionalWrite) : s.choose = s.started p r c := by
  rw [State.choose_port hh he (State.chosenPort_iff.2 hg)]
  obtain ⟨r', c', hr', outcome⟩ := State.grant_cases hg
  obtain ⟨rfl, rfl⟩ := hr.unique hr'
  rcases outcome with ⟨-, e⟩ | ⟨hk', -⟩ | ⟨hk', -⟩
  · rw [e]
  · exact absurd hk' hk
  · exact absurd hk' hk

theorem State.choose_consumes (hk : r.kind = .conditionalWrite) (hold : s.HoldsGranule p r.sysAddr) :
    s.choose = { s.started p r c with
      monitor := { s.monitor with reservations := vput s.monitor.reservations p none } } := by
  rw [State.choose_port hh he (State.chosenPort_iff.2 hg)]
  obtain ⟨r', c', hr', outcome⟩ := State.grant_cases hg
  obtain ⟨rfl, rfl⟩ := hr.unique hr'
  rcases outcome with ⟨hk', -⟩ | ⟨-, -, e⟩ | ⟨-, hn, -⟩
  · exact absurd hk hk'
  · rw [e]
  · exact absurd hold hn

/-- A conditional write that alone waits is answered LINK_FAILED, and the bus stays free (R112, R113). -/
theorem State.choose_linkFails (hk : r.kind = .conditionalWrite) (hold : ¬ s.HoldsGranule p r.sysAddr)
    (keeps : s.KeepsState p) (hn : s.NoEntry p) (alone : ∀ q, q ≠ p → ¬ s.HasCandidate q) :
    s.choose = { s with
      ports := vput s.ports p ((s.port p).answered .linkFailed)
      links := { s.links with engineToTable := s.links.engineToTable ++ [(r.window, r.epoch)] }
      engine := { s.engine with
        rotation := servedOrder s.engine.rotation p, access := none, holder := .free } } := by
  rw [State.choose_port hh he (State.chosenPort_iff.2 hg)]
  obtain ⟨r', c', hr', outcome⟩ := State.grant_cases hg
  obtain ⟨rfl, rfl⟩ := hr.unique hr'
  rcases outcome with ⟨hk', -⟩ | ⟨-, hold', -⟩ | ⟨-, -, t, ht, e⟩
  · exact absurd hk hk'
  · exact absurd hold' hold
  · have unmet : ¬ ((s.port p).answered .linkFailed).QuiesceMet := fun ⟨quiescing, _, empty⟩ => keeps.elim (· quiescing) (· empty)
    have left : s.linkFailure t p r = { s with
        ports := vput s.ports p ((s.port p).answered .linkFailed)
        links := { s.links with engineToTable := s.links.engineToTable ++ [(r.window, r.epoch)] }
        engine := { s.engine with
          rotation := servedOrder s.engine.rotation p, access := none, holder := .free } } := by
      rw [ht.1 unmet]
      rfl
    have nothing : ∀ q, ¬ (s.linkFailure t p r).HasCandidate q := by
      intro q hq
      by_cases hqp : q = p
      · subst hqp
        rcases hq with ⟨d, hd, hp⟩ | ⟨a, adm, ho, -⟩
        · exact hn d (by simpa [left] using hd) hp
        · rw [State.linkFailure_current r ht, if_pos rfl] at ho
          cases ho
      · refine alone q hqp (hq.imp (fun ⟨d, hd, hp⟩ => ⟨d, by simpa [left] using hd, hp⟩) ?_)
        rintro ⟨a, adm, ho, posted⟩
        rw [State.linkFailure_current r ht, if_neg hqp] at ho
        exact ⟨a, adm, ho, posted⟩
    have idle : (s.linkFailure t p r).chosenPort = none :=
      State.chosenPort_none_iff.2 fun q hq => nothing q ((State.competes_iff rfl).1 hq.1).1
    have unasked : (s.linkFailure t p r).engine.extRequest = false := by rw [left]; exact he
    rw [e, ← left]
    exact State.arbitrate_idle unasked idle 6

end

/-! ### The external master (R97, R116, R117) -/

/-- The external master has given the bus back (R116). -/
def State.givenBack (s : State) : State :=
  { s with engine := { s.engine with extRequest := false, extGrant := false, holder := .free } }

theorem exec_externalWithdraw_granted {s : State} (hh : s.engine.holder = .external) :
    exec .externalWithdraw s = .next s.givenBack.choose := by
  simp only [exec, execExternalWithdraw, hh, State.modifyEngine, Engine.withdrawExternal]
  rfl

/-- Settles O45: at the withdrawal nothing competes, as no other port than the record's may and that port waits to
retry. -/
theorem externalMasterSharesTheBus : Obligations.ExternalMasterSharesTheBus := by
  intro s
  refine ⟨fun he => ⟨fun hh => ?_, fun hh => ?_⟩, fun hh => ?_, fun hh idle => ?_, fun a size hh => ?_, fun a size hh => ?_⟩
  · have asked : exec .externalRequest s = .next (s.modifyEngine fun e => { e with extRequest := true }).choose := by
      simp only [exec, execExternalRequest, he]
      rfl
    rw [asked, State.choose_external (by simpa using hh) rfl]
    rfl
  · have asked : exec .externalRequest s = .next (s.modifyEngine fun e => { e with extRequest := true }).choose := by
      simp only [exec, execExternalRequest, he]
      rfl
    rw [asked, State.choose_busy (by simpa using hh)]
    rfl
  · simp [exec, execExternalWithdraw, hh, State.modifyEngine, Engine.withdrawExternal]
  · rw [exec_externalWithdraw_granted hh, State.choose_nothing rfl]
    · rfl
    · intro q hq
      rcases idle with ⟨ha, hn⟩ | ⟨r, hr, hw⟩
      · exact hn q ((State.competes_iff (s := s) ha).1 hq).1
      · exact hq.2.1 (hq.2.2 r hr ▸ hw)
  · simp only [exec, execExternalWriteAck, hh, breakGranule_spec]
    rfl
  · simp [exec, execExternalWriteAck, hh]

/-- Settles O46: the bus that the external master gives back is granted by the choices (`State.choose_chooses`), and each
form of the grant is an equation of `State.choose_starts`, `State.choose_consumes` or `State.choose_linkFails`. -/
theorem arbiterGrantsByRankThenRotation : Obligations.ArbiterGrantsByRankThenRotation := by
  intro s hh
  rw [exec_externalWithdraw_granted hh]
  refine ⟨⟨_, rfl, State.choose_chooses rfl⟩, fun p hg => ?_⟩
  have hg : s.givenBack.GrantsFirst p := hg
  have starts {r c} := State.choose_starts (r := r) (c := c) rfl rfl hg
  have consumes {r c} := State.choose_consumes (r := r) (c := c) rfl rfl hg
  refine ⟨fun r hr => ?_, fun ha e before after ho => ?_, fun ha a adm hn ho => ?_⟩
  · have kept : s.givenBack.GrantRecord p r (s.givenBack.port p).current := .inl ⟨hr, rfl⟩
    refine ⟨fun hk => ?_, fun hk hold => ?_⟩
    · rw [starts kept hk, State.started_same]
      rfl
    · rw [consumes kept hk hold, State.started_same]
      rfl
  · have first : s.givenBack.GrantRecord p (recordOfEntry e s.config.retryLimit)
        (s.givenBack.port p).current :=
      .inr (.inl ⟨ha, e, before, after, ho, rfl, rfl⟩)
    rw [starts first (by simp [recordOfEntry]), State.started_same]
    rfl
  · have first : s.givenBack.GrantRecord p (recordOfAccess p a adm s.config.retryLimit) (.onBus a adm) :=
      .inr (.inr ⟨ha, hn, a, adm, ho, rfl, rfl⟩)
    refine ⟨fun hk => ?_, fun hk hold => ?_, fun hk hold keeps part timer alone => ?_⟩
    · rw [starts first hk]
      rfl
    · rw [consumes first hk hold]
      rfl
    · rw [State.choose_linkFails rfl rfl hg first hk hold keeps hn alone]
      simp only [State.givenBack, ha]
      rfl

end Sys2Proof.Machine
end

section
/-! The endings of a part as they are taken (R106 to R110): which event each command comes to, the retry of a part (R96,
R109), and the next part of an access (R105, R107). -/

namespace Sys2Proof.Machine

/-! ### The part that a command ends -/

section
variable {s : State} {r : BusAccess} {part : BusPart} (ha : s.engine.access = some r) (hp : s.engine.part = some part)
include ha hp

theorem State.terminated_presented : s.terminated s.engine.presented = some (r, part) := by
  simp [State.terminated, State.partInProgress, ha, hp]

theorem State.timedOut_ranOut (h : s.TimerRanOut) : s.timedOut = some (r, part) := by
  obtain ⟨n, k, ht, hlt⟩ := h
  simp [State.timedOut, State.partInProgress, ha, hp, ht, Timer.expired, hlt]

/-- The ending of a part of an access that a port reset abandoned (R114). -/
theorem exec_abandoned (hab : r.abandoned = true) :
    (∀ lanes, exec (.partAck lanes s.engine.presented) s =
      .next (((s.modifyEngine Engine.endPart).reportPart part).endAbandoned r)) ∧
    exec (.partErr s.engine.presented) s = .next ((s.modifyEngine Engine.endPart).endAbandoned r) ∧
    exec (.partRty s.engine.presented) s = .next ((s.modifyEngine Engine.endPart).endAbandoned r) ∧
    (s.TimerRanOut → exec .responseTimerExpiry s = .next ((s.modifyEngine Engine.endPart).endAbandoned r)) := by
  have named := State.terminated_presented ha hp
  refine ⟨fun lanes => ?_, ?_, ?_, fun ht => ?_⟩
  · simp [exec, execPartAck, named, hab]
  · simp [exec, execPartErr, named, hab]
  · simp [exec, execPartRty, named, hab]
  · simp [exec, execResponseTimerExpiry, State.timedOut_ranOut ha hp ht, hab]

end

section
variable {s : State} {r : BusAccess} (h : s.Presents r)
include h

theorem exec_partAck_presents (lanes : Word) : exec (.partAck lanes s.engine.presented) s =
    .next (((s.modifyEngine Engine.endPart).reportPart (partAt r r.partsDone)).partCompleted
      { r with
        partsDone := r.partsDone + 1
        assembled := assembledWith r.assembled (partAt r r.partsDone) lanes }) := by
  obtain ⟨ha, hab, hp⟩ := h
  have advanced := advance_eq r lanes
  rw [nextPart_eq] at advanced
  simp [exec, execPartAck, State.terminated_presented ha hp, hab, advanced]

theorem exec_partRty_presents : exec (.partRty s.engine.presented) s =
    .next ((s.modifyEngine Engine.endPart).retryPart r) := by
  obtain ⟨ha, hab, hp⟩ := h
  simp [exec, execPartRty, State.terminated_presented ha hp, hab]

/-- The failure of an access: only an RTY beyond the limit raises the retry count (R108 to R110). -/
theorem exec_fails {i : Instr} {k : FaultKind} (hi : s.EndsInFailure r i k) :
    ∃ n, exec i s = .next ((s.modifyEngine Engine.endPart).failAccess { r with retryCount := n } k) := by
  rcases hi with ⟨rfl, rfl⟩ | ⟨rfl, rfl, ht⟩ | ⟨rfl, rfl, hlimit⟩
  · obtain ⟨ha, hab, hp⟩ := h
    refine ⟨r.retryCount, ?_⟩
    simp only [exec, execPartErr, State.terminated_presented ha hp, hab]
    rfl
  · obtain ⟨ha, hab, hp⟩ := h
    refine ⟨r.retryCount, ?_⟩
    simp only [exec, execResponseTimerExpiry, State.timedOut_ranOut ha hp ht, hab]
    rfl
  · have beyond : ¬ r.retryCount + 1 ≤ r.retryLimit := by omega
    exact ⟨r.retryCount + 1, by rw [exec_partRty_presents h]; simp [State.retryPart, beyond]⟩

end

/-! ### The next part (R104 to R107, R117, R126) -/

/-- A store's oldest entry of a port changed where it stands (R107). -/
theorem State.OldestEntry.modifyOldest {s : State} {p : PortId} {e : StoreEntry} {before after : List StoreEntry}
    (h : s.OldestEntry p e before after) (f : StoreEntry → StoreEntry) :
    Machine.modifyOldest p f s.engine.store = before ++ f e :: after := by
  obtain ⟨hs, hp, hb⟩ := h
  rw [hs]
  clear hs
  induction before with
  | nil => simp [Machine.modifyOldest, hp]
  | cons d before ih =>
    have hd : d.port ≠ p := hb d (by simp)
    have ih := ih fun x hx => hb x (by simp [hx])
    simp [Machine.modifyOldest, hd, ih]

/-- A write part that ended ACK is reported with its address, and a read part is not (R117, R141). -/
theorem State.reportPart_eq (s : State) (part : BusPart) :
    s.reportPart part = { s with monitor := { s.monitor with
      reservations := if part.isWrite then s.brokenAt part.addr else s.monitor.reservations } } := by
  unfold State.reportPart
  split
  · rw [breakGranule_spec]
  · rfl

/-- Settles O38: the event is the report of the part, the record kept with its counts, and the next part started. -/
theorem partAckStartsTheNextPart : Obligations.PartAckStartsTheNextPart := by
  intro s lanes
  refine ⟨?_, fun n hn => ?_⟩
  · intro r h more part r'
    refine ⟨_, exec_partAck_presents h lanes, ?_⟩
    rw [State.partCompleted, if_pos more, State.reportPart_eq]
    refine ⟨?_, fun hs => ?_, fun hs e before after ho => ?_⟩
    · simp only [State.startPart, State.presentPart, State.keepAccess, State.modifyEngine, Option.map, nextPart_eq]
      rfl
    · simp [State.startPart, State.presentPart, State.keepAccess, Engine.endPart, hs]
    · simp [State.startPart, State.presentPart, State.keepAccess, Engine.endPart, hs, ho.modifyOldest]
  · have untaken : s.terminated n = none := by
      unfold State.terminated State.partInProgress
      rcases hn with hn | hn
      · rw [if_neg hn]
      · split
        · split <;> simp_all
        · rfl
    simp [exec, execPartAck, execPartErr, execPartRty, untaken]

/-! ### The retry of a part (R96, R109) -/

/-- Settles O43: while the record's port waits to retry nothing but the external master can have the bus, and at the tick
that port alone competes for it. -/
theorem retriedPartStartsAgain : Obligations.RetriedPartStartsAgain := by
  intro s r
  refine ⟨fun h within => ?_, ?_⟩
  · let waiting : State := { s with engine := { s.engine.endPart with
      holder := .free
      access := some { r with retryCount := r.retryCount + 1 }
      retryWaiters := removePort r.origin s.engine.retryWaiters ++ [r.origin]
      retryTick := false } }
    have retried : (s.modifyEngine Engine.endPart).retryPart r = waiting.choose := by
      rw [State.retryPart]
      exact if_pos within
    have waiters : removePort r.origin s.engine.retryWaiters =
        s.engine.retryWaiters.filter fun q => q ≠ r.origin := by
      refine List.filter_congr fun q _ => ?_
      by_cases hq : q = r.origin <;> simp [hq]
    rw [exec_partRty_presents h, retried]
    rcases he : s.engine.extRequest with _ | _
    · rw [State.choose_nothing (s := waiting) he fun q hq => hq.2.1 (by rw [← hq.2.2 _ rfl]; simp [waiting])]
      simp [waiting, waiters, Engine.endPart, he]
    · rw [State.choose_external (s := waiting) rfl he]
      simp [waiting, State.grantExternal, State.modifyEngine, waiters, Engine.endPart, he]
  · intro tick released
    let freed : State := { s with engine := released }
    have expired : exec .retryWaitExpiry s = .next freed.choose := by
      simp only [exec, execRetryWaitExpiry, tick]
      rfl
    rw [expired]
    refine ⟨fun hh => ?_, fun hh => ⟨_, rfl, State.choose_chooses (s := freed) hh⟩, ?_⟩
    · rw [State.choose_busy (s := freed) hh]
    · intro hh he hr hab member work again
      have waits : freed.HasCandidate r.origin ∨ freed.Resumes r.origin := by
        rcases work with ⟨-, hn⟩ | ⟨hs, -, a, adm, hc⟩
        · obtain ⟨e, _, _, ho⟩ := State.oldestEntry_exists hn
          exact .inl (.inl ⟨e, by rw [show freed.engine.store = s.engine.store from rfl, ho.1]; simp, ho.2.1⟩)
        · exact .inr ⟨r, a, adm, hr, rfl, hs, hab, hc⟩
      have competes : freed.Competes r.origin :=
        ⟨waits, List.not_mem_nil, fun r' hr' => by rw [Option.some.inj (hr'.symm.trans hr)]⟩
      have first : freed.GrantsFirst r.origin :=
        State.grantsFirst_alone competes member fun q hq => (hq.2.2 r hr).symm
      have kept : freed.GrantRecord r.origin r (freed.port r.origin).current := .inl ⟨hr, rfl⟩
      refine ⟨fun hk => ?_, fun hk hold => ?_, fun hk hold hs keeps part timer alone => ?_⟩
      · rw [State.choose_starts (s := freed) hh he first kept hk, State.started_same]
        rfl
      · rw [State.choose_consumes (s := freed) hh he first kept hk hold, State.started_same]
        rfl
      · have noEntry : freed.NoEntry r.origin := fun e hm hp => alone r.origin (.inl ⟨e, hm, hp⟩)
        rw [State.choose_linkFails (s := freed) hh he first kept hk hold keeps noEntry fun q _ => alone q]
        simp only [freed, released, Engine.idled, part, timer]
        rfl

end Sys2Proof.Machine
end

section
/-! How an access on the bus ends (R111 to R114): a finish with DONE or ERROR, and the end of one that a port reset
abandoned, each followed by the arbiter's choices. -/

namespace Sys2Proof.Machine

/-! ### The finish of a non-posted access (R112) -/

/-- The access r of s is over, u being s with the answer given at its port: one subtraction sent, no record, and the bus
free (R112). -/
def State.accessOver (s u : State) (r : BusAccess) : State :=
  { u with
    links := { u.links with engineToTable := s.links.engineToTable ++ [(r.window, r.epoch)] }
    engine := s.engine.idled }

theorem State.Becomes.withEngine {s t : State} {p : PortId} {x : PortUnit} (h : s.Becomes p x t) (e : Engine) :
    State.Becomes { s with engine := e } p x { t with engine := e } := by
  refine ⟨fun hq => by rw [h.1 hq], fun hq => ?_⟩
  obtain ⟨sends, units, frame⟩ := h.2 hq
  exact ⟨(sends.congr_left rfl rfl).congr rfl rfl, units, by rw [frame]⟩

/-- The finish of an access, from a state whose engine has only to drop the record (R112, R170). -/
theorem State.finishAccess_accessOver (s : State) {e : Engine} (r : BusAccess) (a : Answer) (f : Option FaultInfo)
    (he : e.dropAccess = s.engine.idled) :
    ∃ u, s.Becomes r.origin ((s.port r.origin).answeredWith a f) u ∧
      State.finishAccess { s with engine := e } r a f = s.accessOver u r := by
  have answered := State.endCurrent_becomes { s with engine := e } r.origin a f
  refine ⟨{ State.endCurrent { s with engine := e } r.origin a f with engine := s.engine },
    answered.withEngine s.engine, ?_⟩
  apply State.eq_of_blocks
  · simp [State.finishAccess, State.accessOver]
  · apply Links.eq_of_fields <;> simp [State.finishAccess, State.accessOver]
  all_goals simp [State.finishAccess, State.accessOver, he]

/-- After a finish that completes no quiesce, the choices leave the port with its answer, and where nothing else waits
they do nothing (R98, R112). -/
theorem State.accessOver_choose {s u : State} {r : BusAccess} {x : PortUnit} (hb : s.Becomes r.origin x u)
    (idle : x.current = .idle) (keeps : ¬ x.QuiesceMet) :
    let t := (s.accessOver u r).choose
    ∃ more, t.port r.origin = { x with slot := (t.port r.origin).slot } ∧
      t.links.engineToTable = s.links.engineToTable ++ (r.window, r.epoch) :: more ∧
      t.reservation r.origin = s.reservation r.origin ∧
      (∀ q, s.reservation q = none → t.reservation q = none) ∧
      t.engine.store = s.engine.store ∧ t.config = s.config ∧
      (s.NoneElseWaits r.origin → s.NoEntry r.origin → more = [] ∧
        t = { s with
          ports := vput s.ports r.origin x
          links := { s.links with engineToTable := t.links.engineToTable }
          engine := s.engine.idled }) := by
  intro t
  have over_eq : s.accessOver u r = { s with
      ports := vput s.ports r.origin x
      links := { s.links with engineToTable := s.links.engineToTable ++ [(r.window, r.epoch)] }
      engine := s.engine.idled } := by
    rw [hb.1 keeps]
    rfl
  have unit : ∀ q, (s.accessOver u r).port q = if q = r.origin then x else s.port q := fun q => by
    rw [over_eq]
    simp [State.port]
  have notChosen : (s.accessOver u r).NotChosen r.origin := by
    refine ⟨fun a adm ho => ?_, fun r' hr' => absurd hr' nofun⟩
    have hc := ho.1
    rw [unit, if_pos rfl, idle] at hc
    cases hc
  have only := (s.accessOver u r).choose_choicesOnly
  have leaves := State.choose_leavesPort notChosen
  obtain ⟨more, sent⟩ := only.sent
  have reservation : ∀ q, (s.accessOver u r).reservation q = s.reservation q := fun q => by rw [over_eq]; rfl
  refine ⟨more, ?_, ?_, ?_, fun q hq => only.broken q ((reservation q).trans hq), only.store, ?_, fun alone hn => ?_⟩
  · have kept := leaves.unit
    rwa [unit, if_pos rfl] at kept
  · rw [sent]
    simp [State.accessOver]
  · exact leaves.reservation.trans (reservation r.origin)
  · exact (State.choose_off_bus _).config.trans (by rw [over_eq])
  · have nothing : ∀ q, ¬ (s.accessOver u r).HasCandidate q := by
      intro q hq
      by_cases hqp : q = r.origin
      · rcases hq with ⟨d, hd, hp⟩ | ⟨a, adm, ho⟩
        · exact hn d hd (hp.trans hqp)
        · exact notChosen.1 a adm (hqp ▸ ho)
      · refine alone.2 q hqp (hq.imp (fun ⟨d, hd, hp⟩ => ⟨d, hd, hp⟩) ?_)
        rintro ⟨a, adm, ho, posted⟩
        rw [unit, if_neg hqp] at ho
        exact ⟨a, adm, ho, posted⟩
    have unmoved : t = s.accessOver u r := State.choose_idle rfl alone.1 nothing
    refine ⟨?_, ?_⟩
    · have same : (s.accessOver u r).links.engineToTable ++ more = (s.accessOver u r).links.engineToTable ++ [] := by
        rw [← sent, List.append_nil]
        exact congrArg (·.links.engineToTable) unmoved
      exact List.append_cancel_left same
    · rw [unmoved, over_eq]

/-! ### DONE (R107, R112, R113, R137, R141) -/

theorem State.reportLinkedRead_eq (s : State) (p : PortId) (a : SysAddr) (w : WindowId) (e : Epoch) :
    s.reportLinkedRead p a w e = { s with monitor := { s.monitor with
      reservations :=
        if s.monitor.permission.get p = true ∧ s.monitor.linkEpoch.get w = some e then
          vput s.monitor.reservations p (some { granule := BitVec.ofNat 36 (a.toNat / 16 * 16), window := w })
        else s.monitor.reservations } } := by
  unfold State.reportLinkedRead
  by_cases h : s.monitor.permission.get p = true ∧ s.monitor.linkEpoch.get w = some e
  · simp [h, State.setReservation, granuleOf_eq]
  · have hb : ¬ (s.monitor.permission.get p && s.monitor.linkEpoch.get w == some e) = true := by simpa using h
    rw [if_neg hb, if_neg h]

/-- The last part of a non-posted access: its reports to the monitor, and its finish with DONE. -/
theorem State.partCompleted_last {s : State} {r : BusAccess} (hs : r.fromStore = false)
    (last : r.partsTotal ≤ r.partsDone + 1) (lanes : Word) :
    let r' : BusAccess := { r with
      partsDone := r.partsDone + 1
      assembled := assembledWith r.assembled (partAt r r.partsDone) lanes }
    ((s.modifyEngine Engine.endPart).reportPart (partAt r r.partsDone)).partCompleted r' =
      (State.finishAccess { s with
        engine := { s.engine.endPart with access := some r' }
        monitor := { s.monitor with reservations := s.reservationsDone r } } r' (doneAnswer r lanes) none).choose := by
  intro r'
  have over_last : ¬ r'.partsDone < r'.partsTotal := not_lt.2 last
  have kept : ∀ u : State, u.keepAccess r' = { u with engine := { u.engine with access := some r' } } := fun u => by
    simp [State.keepAccess, State.modifyEngine, r', hs]
  rw [State.partCompleted, if_neg over_last, kept, State.reportPart_eq, State.completeAccess,
    if_neg (by simp [r', hs])]
  by_cases hw : r.kind = .write ∨ r.kind = .conditionalWrite
  · have isWrite : r'.kind.isWrite = true := (isWrite_iff _).2 hw
    have reported : (partAt r r.partsDone).isWrite = true := decide_eq_true hw
    simp only [isWrite, reported, if_true, doneAnswer, hw, State.reservationsDone]
    rfl
  · have isWrite : ¬ r'.kind.isWrite = true := fun h => hw ((isWrite_iff _).1 h)
    have reported : ¬ (partAt r r.partsDone).isWrite = true := fun h => hw (of_decide_eq_true h)
    simp only [isWrite, reported, if_false, doneAnswer, hw, State.reservationsDone]
    by_cases hk : r.kind = .linkedRead
    · have linked : r'.kind = .linkedRead := hk
      simp only [linked, beq_self_eq_true, if_true, State.reportLinkedRead_eq, hk, true_and]
      rfl
    · have linked : ¬ (r'.kind == .linkedRead) = true := by simpa using hk
      rw [if_neg linked]
      simp only [hk, false_and, if_false]
      rfl

/-- A port that keeps its state answers without completing a quiesce (R170). -/
theorem State.KeepsState.not_quiesceMet {s : State} {p : PortId} (h : s.KeepsState p) (a : Answer)
    (f : Option FaultInfo) : ¬ ((s.port p).answeredWith a f).QuiesceMet := by
  rw [← PortUnit.quiesced_iff, PortUnit.answeredWith_quiesced]
  exact fun ⟨quiescing, empty⟩ => h.elim (· quiescing) (· empty)

theorem PortUnit.answeredWith_current (u : PortUnit) (a : Answer) (f : Option FaultInfo) :
    (u.answeredWith a f).current = .idle := by
  cases f <;> simp [PortUnit.answeredWith, PortUnit.offered_current, PortUnit.answered]

/-- Settles O39: the last part reports to the monitor and finishes the access (`State.partCompleted_last`), and the choices
follow (`State.accessOver_choose`). -/
theorem partAckFinishesTheAccess : Obligations.PartAckFinishesTheAccess := by
  intro s r lanes a adm h last hs hc done reservations
  let reported : State := { s with monitor := { s.monitor with reservations := reservations } }
  let r' : BusAccess := { r with
    partsDone := r.partsDone + 1
    assembled := assembledWith r.assembled (partAt r r.partsDone) lanes }
  obtain ⟨u, becomes, finished⟩ := reported.finishAccess_accessOver
    (e := { s.engine.endPart with access := some r' }) r' (doneAnswer r lanes) none rfl
  have event : exec (.partAck lanes s.engine.presented) s = .next (reported.accessOver u r').choose := by
    rw [exec_partAck_presents h, State.partCompleted_last hs last, ← finished]
  refine ⟨u, _, event, becomes, State.choose_chooses (s := reported.accessOver u r') rfl, fun keeps => ?_⟩
  obtain ⟨more, unit, sent, reservation, broken, store, -, alone⟩ := State.accessOver_choose becomes
    (PortUnit.answeredWith_current _ _ _) (State.KeepsState.not_quiesceMet (s := reported) keeps _ none)
  exact ⟨more, unit, sent, reservation, broken, store, alone⟩

/-! ### ERROR (R108 to R112, R150, R151) -/

/-- Settles O41: the access ends by `State.finishAccess` with its bus fault, and the choices follow
(`State.accessOver_choose`). -/
theorem failedAccessAnswersError : Obligations.FailedAccessAnswersError := by
  intro s r i k a adm h hi hs hc failed
  obtain ⟨n, fails⟩ := exec_fails h hi
  let r' : BusAccess := { r with retryCount := n }
  obtain ⟨u, becomes, finished⟩ := s.finishAccess_accessOver (e := s.engine.endPart) r' .error
    (some (busFaultOf k r a)) rfl
  have failure : (s.modifyEngine Engine.endPart).failAccess r' k =
      ((s.modifyEngine Engine.endPart).finishAccess r' .error (some (busFaultOf k r a))).choose := by
    have onBus : ((s.modifyEngine Engine.endPart).port r'.origin).current = .onBus a adm := hc
    rw [State.failAccess, if_neg (by simp [r', hs]), onBus]
    rfl
  have event : exec i s = .next (s.accessOver u r').choose := by
    rw [fails, failure, ← finished]
    rfl
  refine ⟨u, _, event, becomes, State.choose_chooses (s := s.accessOver u r') rfl, fun keeps => ?_⟩
  obtain ⟨more, unit, sent, reservation, -, store, config, alone⟩ := State.accessOver_choose becomes
    (PortUnit.answeredWith_current _ _ _) (keeps.not_quiesceMet _ (some _))
  exact ⟨more, unit, sent, reservation, store, config, alone⟩

/-! ### The end of an abandoned access (R114) -/

/-- Port p offers a conditional write to the arbiter. -/
def State.OffersConditional (s : State) (p : PortId) : Prop :=
  ∃ a adm, s.OffersAccess p a adm ∧ a.kind = .conditionalWrite

/-- Two units hold the same fault record, with its overflow count and FAULT line (R148). -/
def PortUnit.SameFault (u v : PortUnit) : Prop :=
  u.fault = v.fault ∧ u.overflow = v.overflow ∧ u.faultLine = v.faultLine

theorem PortUnit.SameFault.refl (u : PortUnit) : u.SameFault u := ⟨rfl, rfl, rfl⟩

theorem PortUnit.SameFault.trans {u v w : PortUnit} (h : u.SameFault v) (k : v.SameFault w) : u.SameFault w := by
  obtain ⟨fault, overflow, line⟩ := h
  obtain ⟨fault', overflow', line'⟩ := k
  exact ⟨fault.trans fault', overflow.trans overflow', line.trans line'⟩

/-- What choices from a bus without a record change of the reservations and of what the ports show: a conditional write
may consume its port's reservation or be answered LINK_FAILED, and a record formed is in force (R101, R113, R139). -/
structure State.GrantsOnly (s t : State) : Prop where
  reservation : ∀ q, t.reservation q = s.reservation q ∨ (t.reservation q = none ∧ s.OffersConditional q)
  fault : ∀ q, (t.port q).SameFault (s.port q)
  answer : ∀ q, (t.port q).answer = (s.port q).answer ∨
    ((t.port q).answer = some .linkFailed ∧ s.OffersConditional q)
  inForce : ∀ x, t.engine.access = some x → x.abandoned = false

theorem Units.wentOffline_shown (us : Units) (p q : PortId) (b : Bool) :
    (us.wentOffline p b q).SameFault (us q) ∧ (us.wentOffline p b q).answer = (us q).answer := by
  unfold Units.wentOffline PortUnit.SameFault
  rcases (us p).offlineRequester with _ | ⟨x, n⟩ <;> by_cases hq : q = p <;> simp [Units.put, hq, PortUnit.offlined]

/-- A LINK_FAILED is shown by its port's answer alone. -/
theorem State.linkFailure_shown {s t : State} {p : PortId} (r : BusAccess)
    (h : s.Becomes p ((s.port p).answered .linkFailed) t) (q : PortId) :
    ((s.linkFailure t p r).port q).SameFault (s.port q) ∧
    ((s.linkFailure t p r).port q).answer = if q = p then some .linkFailed else (s.port q).answer := by
  have put : (t.port q).SameFault (Units.put s.port p ((s.port p).answered .linkFailed) q) ∧
      (t.port q).answer = (Units.put s.port p ((s.port p).answered .linkFailed) q).answer := by
    by_cases hq : ((s.port p).answered .linkFailed).QuiesceMet
    · rw [(h.2 hq).2.1]
      exact Units.wentOffline_shown _ _ _ _
    · rw [h.1 hq]
      by_cases hqp : q = p <;> simp [State.port, Units.put, hqp, PortUnit.SameFault]
  rw [Units.put] at put
  split at put
  · rw [if_pos (by assumption)]
    rename_i hqp
    exact hqp ▸ put
  · rw [if_neg (by assumption)]
    exact put

/-- A record formed at a first grant is in force, and is a conditional write only where the port offers one. -/
theorem State.GrantRecord.formed {s : State} {p : PortId} {r : BusAccess} {c : CurrentAccess}
    (h : s.GrantRecord p r c) (ha : s.engine.access = none) :
    r.abandoned = false ∧ (r.kind = .conditionalWrite → s.OffersConditional p) := by
  rcases h with ⟨hr, -⟩ | ⟨-, e, _, _, -, rfl, -⟩ | ⟨-, -, a, adm, ho, rfl, -⟩
  · rw [ha] at hr
    cases hr
  · exact ⟨rfl, nofun⟩
  · exact ⟨rfl, fun hk => ⟨a, adm, ho, hk⟩⟩

theorem State.started_shown (s : State) (p : PortId) (r : BusAccess) (c : CurrentAccess) (q : PortId) :
    ((s.started p r c).port q).SameFault (s.port q) ∧ ((s.started p r c).port q).answer = (s.port q).answer := by
  by_cases hq : q = p <;> simp [State.started, State.port, hq, PortUnit.SameFault]

theorem State.Chooses.grantsOnly {s t : State} (h : s.Chooses t) : s.engine.access = none → s.GrantsOnly t := by
  induction h with
  | external _ | nothing _ _ =>
    exact fun ha => ⟨fun _ => .inl rfl, fun _ => .refl _, fun _ => .inl rfl,
      fun x hx => absurd (ha.symm.trans hx) nofun⟩
  | @starts s p r c _ _ hr _ =>
    intro ha
    have shown := s.started_shown p r c
    refine ⟨fun _ => .inl rfl, fun q => (shown q).1, fun q => .inl (shown q).2, fun x hx => ?_⟩
    rw [← Option.some.inj hx]
    exact (hr.formed ha).1
  | @consumes s p r c _ _ hr hk _ =>
    intro ha
    have shown := s.started_shown p r c
    refine ⟨fun q => ?_, fun q => (shown q).1, fun q => .inl (shown q).2, fun x hx => ?_⟩
    · by_cases hq : q = p
      · subst hq
        exact .inr ⟨by simp [State.reservation], (hr.formed ha).2 hk⟩
      · exact .inl (by simp [State.reservation, hq])
    · rw [← Option.some.inj hx]
      exact (hr.formed ha).1
  | @linkFailed s t u p r c _ _ hr hk _ ht _ ih =>
    intro ha
    have conditional := (hr.formed ha).2 hk
    have shown := State.linkFailure_shown r ht
    have reservation : ∀ q, (s.linkFailure t p r).reservation q = s.reservation q := fun q =>
      congrArg (fun m : Monitor => m.reservations.get q) ht.blocks.2.1
    have offers : ∀ q, (s.linkFailure t p r).OffersConditional q → s.OffersConditional q := by
      rintro q ⟨a, adm, ⟨hc, posted⟩, hkind⟩
      rw [State.linkFailure_current r ht] at hc
      split at hc
      · cases hc
      · exact ⟨a, adm, ⟨hc, posted⟩, hkind⟩
    have rest : (s.linkFailure t p r).GrantsOnly u := ih rfl
    refine ⟨fun q => ?_, fun q => (rest.fault q).trans (shown q).1, fun q => ?_, rest.inForce⟩
    · rw [← reservation q]
      exact (rest.reservation q).imp_right fun ⟨broken, hq⟩ => ⟨broken, offers q hq⟩
    · obtain ⟨-, answer⟩ := shown q
      rcases rest.answer q with same | ⟨failed, hq⟩
      · rw [same, answer]
        split
        · rename_i hqp
          exact .inr ⟨rfl, hqp ▸ conditional⟩
        · exact .inl rfl
      · exact .inr ⟨failed, offers q hq⟩

/-- Settles O44: whatever ends the part, the choices follow from the state in which the access is over, and the bus then
holds no record (`State.Chooses.grantsOnly`). -/
theorem abandonedAccessEnds : Obligations.AbandonedAccessEnds := by
  intro s r i ha hab hp hi part reservations ended
  obtain ⟨ack, err, rty, expiry⟩ := exec_abandoned ha hp hab
  have unreported : (∀ lanes, i ≠ .partAck lanes s.engine.presented) → reservations = s.monitor.reservations :=
    fun hno => if_neg fun ⟨_, lanes, hl⟩ => hno lanes hl
  have event : exec i s = .next ended.choose := by
    rcases hi with ⟨lanes, rfl⟩ | rfl | rfl | ⟨rfl, ht⟩
    · have reported : reservations = if part.isWrite then s.brokenAt part.addr else s.monitor.reservations := by
        by_cases hw : part.isWrite = true
        · rw [if_pos hw]
          exact if_pos ⟨hw, lanes, rfl⟩
        · rw [if_neg hw]
          exact if_neg fun hx => hw hx.1
      rw [ack lanes, State.reportPart_eq]
      simp only [ended, reported]
      rfl
    · simp only [err, ended, unreported nofun]
      rfl
    · simp only [rty, ended, unreported nofun]
      rfl
    · simp only [expiry ht, ended, unreported nofun]
      rfl
  have only := ended.choose_choicesOnly
  have chooses : ended.Chooses ended.choose := State.choose_chooses rfl
  have grants := chooses.grantsOnly rfl
  obtain ⟨more, sent⟩ := only.sent
  refine ⟨_, more, event, chooses, ?_, only.store, (State.choose_off_bus ended).config, grants.reservation,
    grants.inForce, fun q => ?_, fun he hn => State.choose_idle rfl he hn⟩
  · rw [sent]
    simp [ended]
  · obtain ⟨fault, overflow, line⟩ := grants.fault q
    exact ⟨fault, overflow, line, grants.answer q⟩

end Sys2Proof.Machine
end

section
/-! A candidate that becomes eligible at a free bus (R34, R38, R98, R121): the offer ends in the choices, which grant it
where it is alone. -/

namespace Sys2Proof.Machine

/-- The state m in which port p's admitted access has been offered, b being the state without the offer and u the port's
unit: a posted write is a store entry and answered, any other access waits (R34, R120, R121). -/
def State.OfferMade (b : State) (p : PortId) (u : PortUnit) (a : Access) (adm : Admission) (m : State) : Prop :=
  (adm.posted = false → m = { b with ports := vput b.ports p { u with current := .waiting a adm true } }) ∧
  (adm.posted = true → m = { b with
    ports := vput b.ports p
      { u with current := .idle, answer := some (.done none), occupancyCopy := u.occupancyCopy + 1 }
    engine := { b.engine with store := b.engine.store ++ [entryOf p u.epoch a adm] } })

/-- The state t in which that access, or its store entry, has been granted (R101, R126). -/
def State.OfferGranted (b : State) (p : PortId) (u : PortUnit) (a : Access) (adm : Admission) (t : State) : Prop :=
  (adm.posted = false →
    t.engine = b.grantedEngine p (recordOfAccess p a adm b.config.retryLimit) ∧
    t.port p = { u with current := .onBus a adm }) ∧
  (adm.posted = true →
    t.engine = { b.grantedEngine p (recordOfEntry (entryOf p u.epoch a adm) b.config.retryLimit) with
      store := b.engine.store ++ [entryOf p u.epoch a adm] } ∧
    t.port p = { u with current := .idle, answer := some (.done none), occupancyCopy := u.occupancyCopy + 1 })

/-- The access that port p offers is no conditional write, and nothing else competes for the bus. -/
def State.OffersAlone (s : State) (p : PortId) (a : Access) : Prop :=
  a.kind ≠ .conditionalWrite ∧ s.engine.access = none ∧ s.NoneElseWaits p ∧ s.NoEntry p ∧
  p ∉ s.engine.retryWaiters ∧ p ∈ s.engine.rotation

theorem State.HasCandidate.of_unit {s t : State} {q : PortId} (h : t.HasCandidate q) (hu : t.port q = s.port q)
    (hs : ∀ e ∈ t.engine.store, e.port = q → e ∈ s.engine.store) : s.HasCandidate q := by
  rcases h with ⟨e, he, hq⟩ | ⟨a, adm, hc, posted⟩
  · exact .inl ⟨e, hs e he hq, hq⟩
  · exact .inr ⟨a, adm, hu ▸ hc, posted⟩

/-- What reads only the engine and the stages reads the same of states with the same bus. -/
theorem State.OffersAlone.of_bus {s t : State} {p : PortId} {a : Access} (h : s.OffersAlone p a)
    (e : t.bus = s.bus) : t.OffersAlone p a := by
  have he := State.bus_engine e
  have candidates : ∀ q, t.HasCandidate q → s.HasCandidate q := by
    intro q hq
    simpa only [State.HasCandidate, State.OffersAccess, he, State.bus_current e] using hq
  obtain ⟨hk, ha, ⟨asked, alone⟩, hn, waits, member⟩ := h
  unfold State.OffersAlone State.NoneElseWaits State.NoEntry
  rw [he]
  exact ⟨hk, ha, ⟨asked, fun q hq hc => alone q hq (candidates q hc)⟩, hn, waits, member⟩

/-- The port that offers alone is the one granted, once its offer is made. -/
theorem State.OffersAlone.grantsFirst {b m : State} {p : PortId} {a : Access} (h : b.OffersAlone p a)
    (hc : m.HasCandidate p) (hu : ∀ q, q ≠ p → m.port q = b.port q)
    (hs : ∀ e ∈ m.engine.store, e.port ≠ p → e ∈ b.engine.store) (ha : m.engine.access = b.engine.access)
    (hw : m.engine.retryWaiters = b.engine.retryWaiters) (hr : m.engine.rotation = b.engine.rotation) :
    m.GrantsFirst p := by
  obtain ⟨-, none, ⟨-, alone⟩, -, waits, member⟩ := h
  have record : m.engine.access = .none := ha.trans none
  refine State.grantsFirst_alone ((State.competes_iff record).2 ⟨hc, hw ▸ waits⟩) (hr ▸ member) fun q hq => ?_
  by_contra hqp
  have candidate := ((State.competes_iff record).1 hq).1
  exact alone q hqp (candidate.of_unit (hu q hqp) fun e he hp => hs e he (hp ▸ hqp))

/-- An offer at a free bus ends in the choices, and alone it is granted (R34, R98, R101, R120, R121). -/
theorem State.offer_free (b : State) (p : PortId) (u : PortUnit) (c : CurrentAccess) (a : Access) (adm : Admission)
    (hh : b.engine.holder = .free) (room : adm.posted = false ∨ b.HasRoom p) :
    ∃ m, State.offer { b with ports := vput b.ports p { u with current := c } } p a adm = m.choose ∧
      m.engine.holder = .free ∧ b.OfferMade p u a adm m ∧
      (b.OffersAlone p a → b.OfferGranted p u a adm m.choose ∧ ∀ q, q ≠ p → m.choose.port q = b.port q) := by
  let x : State := { b with ports := vput b.ports p { u with current := c } }
  have unit : x.port p = { u with current := c } := by simp [x, State.port]
  have change : ∀ f : PortUnit → PortUnit,
      x.modifyPort p f = { b with ports := vput b.ports p (f { u with current := c }) } := fun f => by
    simp [State.modifyPort_eq, unit, x]
  have elsewhere : ∀ (v : PortUnit) (e : Engine) (q : PortId), q ≠ p →
      State.port { b with ports := vput b.ports p v, engine := e } q = b.port q := fun v e q hq => by
    simp [State.port, hq]
  rcases hp : adm.posted with _ | _
  · let m : State := { b with ports := vput b.ports p { u with current := .waiting a adm true } }
    have made : x.offer p a adm = m.choose := by
      rw [State.offer, hp, State.setCurrent_eq, change]
      rfl
    refine ⟨m, made, hh, ⟨fun _ => rfl, fun h => absurd (hp.symm.trans h) nofun⟩, fun alone => ?_⟩
    have offers : m.OffersAccess p a adm := ⟨by simp [m, State.port], hp⟩
    have first : m.GrantsFirst p :=
      alone.grantsFirst (.inr ⟨a, adm, offers⟩) (elsewhere _ _) (fun _ he _ => he) rfl rfl rfl
    obtain ⟨hk, ha, ⟨asked, -⟩, hn, -⟩ := alone
    have granted := State.choose_starts (s := m) hh asked first (.inr (.inr ⟨ha, hn, a, adm, offers, rfl, rfl⟩)) hk
    rw [granted]
    refine ⟨⟨fun _ => ⟨rfl, ?_⟩, fun h => absurd (hp.symm.trans h) nofun⟩, fun q hq => ?_⟩
    · simp [State.started, State.port, m]
    · simp [State.started, State.port, m, hq]
  · let e : StoreEntry := entryOf p u.epoch a adm
    let m : State := { b with
      ports := vput b.ports p
        { u with current := .idle, answer := some (.done none), occupancyCopy := u.occupancyCopy + 1 }
      engine := { b.engine with store := b.engine.store ++ [e] } }
    have fits : x.fits p = true := (fits_iff x p).2 (room.resolve_left (by simp [hp]))
    have made : x.offer p a adm = m.choose := by
      rw [State.offer, hp, fits, State.accept_eq, State.modifyEngine_modifyPort, change, unit]
      rfl
    refine ⟨m, made, hh, ⟨fun h => absurd (hp.symm.trans h) nofun, fun _ => rfl⟩, fun alone => ?_⟩
    have first : m.GrantsFirst p := by
      refine alone.grantsFirst (.inl ⟨e, by simp [m], rfl⟩) (elsewhere _ _) (fun d hd hdp => ?_) rfl rfl rfl
      rcases List.mem_append.1 hd with hd | hd
      · exact hd
      · exact absurd (congrArg StoreEntry.port (List.mem_singleton.1 hd)) hdp
    obtain ⟨-, ha, ⟨asked, -⟩, hn, -⟩ := alone
    have oldest : m.OldestEntry p e b.engine.store [] := ⟨rfl, rfl, hn⟩
    have granted := State.choose_starts (s := m) hh asked first (.inr (.inl ⟨ha, e, _, _, oldest, rfl, rfl⟩)) nofun
    rw [granted, State.started_same]
    refine ⟨⟨fun h => absurd (hp.symm.trans h) nofun, fun _ => ⟨rfl, ?_⟩⟩, elsewhere _ _⟩
    simp [State.port, m]

/-- Settles O47: both events end in the offer of the access (`State.offer_free`), after the copy is installed or after the
addition is counted. -/
theorem freeBusTakesTheNewCandidate : Obligations.FreeBusTakesTheNewCandidate := by
  intro s p a adm hh offered alone grants room
  constructor
  · rintro c rest hm hw hf rfl u
    let base : State := { s with
      links := { s.links with toPort := vput s.links.toPort p rest }
      monitor := { s.monitor with reservations :=
        if a.kind = .linkedRead then vput s.monitor.reservations p none else s.monitor.reservations } }
    have taken : exec (.admitAnswer p) s = .next (State.offer { base with
        ports := vput base.ports p { u with current := .waiting a (admissionOf c a) false } } p a (admissionOf c a)) := by
      rw [exec_admitAnswer hm, State.takeAdmitted_walking (s := s.setToPort p rest) hw hf, State.dropForLinkedRead_eq]
      rfl
    obtain ⟨m, made, free, ⟨plain, posted⟩, granted⟩ := base.offer_free p u (.waiting a (admissionOf c a) false) a
      (admissionOf c a) hh room
    refine ⟨m, _, taken.trans (congrArg _ made), State.choose_chooses free, ⟨plain, fun hp _ => posted hp⟩, fun h => ?_⟩
    obtain ⟨⟨plain, posted⟩, elsewhere⟩ := granted h
    exact ⟨⟨plain, fun hp _ => posted hp⟩, elsewhere⟩
  · intro w e rest b hm hb hc hwait g raised units
    obtain ⟨takes, port, frame⟩ := State.takeFromPort_counted hm hb e (· + 1)
    have taken := State.addition_taken hm hb hc
    generalize ((s.takeFromPort p rest).modifyCount w e (· + 1)).evaluate w = base at takes port frame taken
    have engine : base.engine = s.engine := by rw [frame]
    have config : base.config = s.config := by rw [frame]
    have port : base.port = units := port
    have current : ∀ q, (base.port q).current = (s.port q).current := fun q => by simp [port, units]
    have same : ({ base with
        ports := vput base.ports p { base.port p with current := .waiting a adm false } } : State) = base := by
      have hwait := (current p).trans hwait
      rw [← hwait]
      exact congrArg (fun x => ({ base with ports := x } : State)) (vput_self _ _)
    have offeredAt := State.offerAdded_waiting (s := base) ((current p).trans hwait)
    obtain ⟨m, made, free, ⟨plain, posted⟩, granted⟩ := base.offer_free p (base.port p) (.waiting a adm false) a adm
      (engine ▸ hh) (room.imp_right fun hr => by unfold State.HasRoom; rwa [engine])
    rw [same] at made
    rw [port, engine] at posted
    rw [port] at plain
    refine ⟨base, m, _, taken.trans (congrArg _ (offeredAt.trans made)), State.choose_chooses free, takes, port, frame,
      ⟨plain, fun hp _ => posted hp⟩, fun h hop => ?_⟩
    have unit : base.port = s.port := by
      rw [port]
      simp only [units, Units.evaluated, raised, WindowBody.withCount, hop]
    obtain ⟨⟨plain, posted⟩, elsewhere⟩ :=
      granted (State.OffersAlone.of_bus h (State.bus_of_current engine current))
    have engines : ∀ r, base.grantedEngine p r = s.grantedEngine p r := fun r => by
      simp only [State.grantedEngine, State.freshTimer, engine, config]
    rw [unit, engines, config] at plain
    rw [unit, engines, engine, config] at posted
    exact ⟨⟨plain, fun hp _ => posted hp⟩, fun q hq => (elsewhere q hq).trans (congrFun unit q)⟩

end Sys2Proof.Machine
end

section
/-! A tick with no command waiting, and the expiries before their ticks (R96, R115). -/

namespace Sys2Proof.Machine

theorem Timer.expired_iff {t : Timer} : t.expired = true ↔ t.limit < t.ticks := decide_eq_true_iff

/-! ### What one tick leaves -/

/-- Of the engine a tick changes the response timer, and notes whether waiters have seen it. -/
theorem State.tick_engine (s : State) : s.tick.engine = { s.engine with
    timer := s.engine.timer.map Timer.tick, retryTick := decide (s.engine.retryWaiters ≠ []) } := by
  have waiters : (!s.engine.retryWaiters.isEmpty) = decide (s.engine.retryWaiters ≠ []) := by
    cases s.engine.retryWaiters <;> rfl
  rw [← waiters]
  rfl

theorem State.tick_port (s : State) (p : PortId) :
    s.tick.port p = { s.port p with current := (s.port p).current.tick } := by
  simp [State.tick, State.tickTimers, State.port]

/-- Only a PARKED access has a timer that counts (R41). -/
theorem CurrentAccess.tick_unparked {c : CurrentAccess} (h : ∀ a w x, c ≠ .parked a w x) : c.tick = c := by
  cases c with
  | parked a w x => exact absurd rfl (h a w x)
  | _ => rfl

theorem CurrentAccess.expired_unparked {c : CurrentAccess} (h : ∀ a w x, c ≠ .parked a w x) : c.expired = false := by
  cases c with
  | parked a w x => exact absurd rfl (h a w x)
  | _ => rfl

/-! ### The expiries that a tick brings -/

theorem State.retryWaitExpiry_due (s : State) : .retryWaitExpiry ∈ s.dueExpiries ↔ s.engine.retryWaiters ≠ [] := by
  simp [State.dueExpiries]

theorem State.responseTimerExpiry_due (s : State) :
    .responseTimerExpiry ∈ s.dueExpiries ↔ ∃ t, s.engine.timer = some t ∧ t.limit < t.ticks := by
  simp [State.dueExpiries, Option.any_eq_true, Timer.expired_iff]

theorem State.parkTimerExpiry_due (s : State) (p : PortId) :
    .parkTimerExpiry p ∈ s.dueExpiries ↔ (s.port p).current.expired = true := by
  simp [State.dueExpiries, mem_allPorts]

/-- A parked port's expiry is due exactly where the tick is past the load (R41, R115). -/
theorem State.tick_parkTimerExpiry (s : State) (p : PortId) :
    .parkTimerExpiry p ∈ s.tick.pending ↔ (s.port p).current.tick.expired = true :=
  (s.tickTimers.parkTimerExpiry_due p).trans (by
    rw [show s.tickTimers.port p = s.tick.port p from rfl, s.tick_port])

/-! ### An expiry before its tick -/

/-- The response timer's expiry before its tick does not occur (R110, R115). -/
theorem State.exec_responseTimerExpiry_early {s : State} (h : ¬ s.TimerRanOut) :
    exec .responseTimerExpiry s = .next s := by
  have running : ¬ s.engine.timer.any Timer.expired = true := by
    rw [Option.any_eq_true]
    rintro ⟨⟨n, k⟩, timer, expired⟩
    exact h ⟨n, k, timer, Timer.expired_iff.1 expired⟩
  have early : s.timedOut = none := if_neg running
  simp only [exec, execResponseTimerExpiry, early]

/-- The retry waiters leave only at a tick since they entered (R96). -/
theorem State.exec_retryWaitExpiry_early {s : State} (h : s.engine.retryTick = false) :
    exec .retryWaitExpiry s = .next s := by
  simp [exec, execRetryWaitExpiry, h]

/-- A park timer's expiry before its tick does not occur, nor at a port that is not PARKED (R41, R43). -/
theorem State.exec_parkTimerExpiry_early {s : State} {p : PortId} (h : (s.port p).current.expired = false) :
    exec (.parkTimerExpiry p) s = .next s := by
  simp [exec, execParkTimerExpiry, h]

theorem CurrentAccess.running {c : CurrentAccess} (h : ∀ a w n k, c = .parked a w ⟨n, k⟩ → k ≤ n) :
    c.expired = false := by
  cases c with
  | parked a w x => exact decide_eq_false (Nat.not_lt.2 (h a w x.limit x.ticks rfl))
  | _ => rfl

/-- Settles O3: the tick's parts one by one (`State.tick_engine`, `State.tick_port` and the due expiries), then the three expiries
before their ticks. -/
theorem tickCountsTimers : Obligations.TickCountsTimers := by
  intro s
  refine ⟨fun idle => ?_, State.exec_responseTimerExpiry_early, State.exec_retryWaitExpiry_early,
    fun p h => State.exec_parkTimerExpiry_early (CurrentAccess.running h)⟩
  have ticks : step s = .next s.tick := by
    rw [step, idle]
  have timer : s.tick.engine.timer = s.engine.timer.map Timer.tick := rfl
  have response : .responseTimerExpiry ∈ s.tick.pending ↔
      ∃ t, s.engine.timer.map Timer.tick = some t ∧ t.limit < t.ticks := s.tickTimers.responseTimerExpiry_due
  refine ⟨s.tick, ticks, rfl, rfl, rfl, rfl, s.tick_engine, fun n k running => ?_, fun stopped => ?_,
    s.tickTimers.retryWaitExpiry_due, fun p => ⟨fun a w n k parked => ?_, fun unparked => ?_⟩⟩
  · rw [timer, response, running]
    simp [Timer.tick]
  · rw [timer, response, stopped]
    simp
  · rw [s.tick_port, s.tick_parkTimerExpiry, parked]
    simp [CurrentAccess.tick, CurrentAccess.expired, Timer.tick, Timer.expired_iff]
  · rw [s.tick_port, s.tick_parkTimerExpiry, CurrentAccess.tick_unparked unparked,
      CurrentAccess.expired_unparked unparked]
    exact ⟨rfl, nofun⟩

end Sys2Proof.Machine
end

section
/-! The bounds of the posted-write store (R121): an entry joins the store only where both bounds leave room for it, and
every other event leaves the ports of the entries as they are or takes some away. -/

namespace Sys2Proof.Machine

/-! ### What the law reads -/

/-- The ports of the store's entries, oldest first: all that the bounds read. -/
def State.storePorts (s : State) : List PortId := s.engine.store.map StoreEntry.port

theorem State.storeWithinBounds_iff {s : State} :
    s.StoreWithinBounds ↔ s.storePorts.length ≤ 16 ∧ ∀ p, s.storePorts.count p ≤ 8 := by
  have occupancy : ∀ p, (s.engine.store.filter fun e => e.port = p).length = s.storePorts.count p := fun p => by
    rw [State.storePorts, List.count, List.countP_map, List.countP_eq_length_filter]
    rfl
  simp only [State.StoreWithinBounds, occupancy, State.storePorts, List.length_map]

theorem State.StoreWithinBounds.of_sublist {s t : State} (h : s.StoreWithinBounds)
    (k : t.storePorts.Sublist s.storePorts) : t.StoreWithinBounds := by
  obtain ⟨all, each⟩ := State.storeWithinBounds_iff.1 h
  exact State.storeWithinBounds_iff.2 ⟨k.length_le.trans all, fun p => (k.count_le p).trans (each p)⟩

theorem State.StoreWithinBounds.of_store {s t : State} (h : s.StoreWithinBounds)
    (e : t.engine.store = s.engine.store) : t.StoreWithinBounds :=
  h.of_sublist (by rw [State.storePorts, e]; exact List.Sublist.refl _)

theorem State.StoreWithinBounds.of_engine {s t : State} (h : s.StoreWithinBounds) (e : t.engine = s.engine) :
    t.StoreWithinBounds :=
  h.of_store (by rw [e])

/-- An entry's parts completed may rise where it stands (R107). -/
theorem modifyOldest_ports {f : StoreEntry → StoreEntry} (hf : ∀ e, (f e).port = e.port) (p : PortId) :
    ∀ l, (modifyOldest p f l).map StoreEntry.port = l.map StoreEntry.port
  | [] => rfl
  | e :: rest => by
    unfold modifyOldest
    split
    · simp [hf]
    · simp [modifyOldest_ports hf p rest]

/-! ### The operations on the store (R119 to R123, R127) -/

/-- The one way into the store is past both bounds (R121). -/
theorem State.StoreWithinBounds.accept {s : State} (h : s.StoreWithinBounds) {p : PortId} (room : s.fits p = true)
    (a : Access) (adm : Admission) : (s.accept p a adm).StoreWithinBounds := by
  obtain ⟨all, own⟩ := (fits_iff s p).1 room
  refine State.StoreWithinBounds.of_store (s := { s with engine := { s.engine with
    store := s.engine.store ++ [entryOf p (s.port p).epoch a adm] } }) ⟨?_, fun q => ?_⟩ (by rw [State.accept_eq]; rfl)
  · simpa using all
  · have each := h.2 q
    rw [List.filter_append, List.length_append]
    by_cases hq : q = p
    · subst hq
      simpa [entryOf] using own
    · have other : ¬ p = q := fun e => hq e.symm
      simpa [entryOf, other] using each

section
variable {s : State} (h : s.StoreWithinBounds)
include h

theorem State.StoreWithinBounds.choose : s.choose.StoreWithinBounds := h.of_store s.choose_choicesOnly.store

theorem State.StoreWithinBounds.admitWaiter : s.admitWaiter.StoreWithinBounds := by
  unfold State.admitWaiter
  split
  · exact h
  · rename_i p hp
    split
    · exact h
    · have fits : s.waiterFits p = true := List.find?_some hp
      rw [State.waiterFits, Bool.and_eq_true] at fits
      have left : (s.modifyEngine fun g => { g with waitingList := removePort p g.waitingList }).StoreWithinBounds := h
      exact left.accept fits.1 _ _

theorem State.StoreWithinBounds.offer (p : PortId) (a : Access) (adm : Admission) :
    (s.offer p a adm).StoreWithinBounds := by
  unfold State.offer
  split
  · split
    · rename_i room
      exact (h.accept room a adm).choose
    · exact h
  · exact (h.of_engine (t := s.setCurrent p _) rfl).choose

theorem State.StoreWithinBounds.finishEntry (r : BusAccess) : (s.finishEntry r).StoreWithinBounds := by
  have removed : (s.modifyEngine fun g =>
      ({ g with store := removeOldest r.origin g.store } : Engine).dropAccess).StoreWithinBounds :=
    h.of_sublist (List.eraseP_sublist.map StoreEntry.port)
  have reported : ∀ (u : State) (reports : Vector Nat 6), u.StoreWithinBounds →
      State.StoreWithinBounds { u with links := { u.links with reports := reports } } := fun _ _ hu => hu
  exact (reported _ _ (removed.choose.of_engine (State.engineSubtract_engine _ r.window r.epoch))).admitWaiter.choose

theorem State.StoreWithinBounds.keepAccess (r : BusAccess) : (s.keepAccess r).StoreWithinBounds := by
  refine h.of_sublist ?_
  unfold State.storePorts State.keepAccess State.modifyEngine
  dsimp only
  split
  · rw [modifyOldest_ports (f := fun e => { e with partsDone := r.partsDone }) fun _ => rfl]
  · exact List.Sublist.refl _

/-! ### The endings of an access (R111 to R114, R127, R128) -/

theorem State.StoreWithinBounds.finishAccess (r : BusAccess) (a : Answer) (f : Option FaultInfo) :
    (s.finishAccess r a f).StoreWithinBounds :=
  h.of_store (s.finishAccess_choicesOnly r a f).store

theorem State.StoreWithinBounds.endAbandoned (r : BusAccess) : (s.endAbandoned r).StoreWithinBounds :=
  State.StoreWithinBounds.choose h

theorem State.StoreWithinBounds.failAccess (r : BusAccess) (k : FaultKind) : (s.failAccess r k).StoreWithinBounds := by
  unfold State.failAccess
  split
  · split
    · exact h.finishEntry r
    · exact (h.of_engine (State.bus_engine (s.routeDeferred_bus _ _))).finishEntry r
  · split <;> exact (h.finishAccess r _ _).choose

theorem State.StoreWithinBounds.completeAccess (r : BusAccess) : (s.completeAccess r).StoreWithinBounds := by
  unfold State.completeAccess
  split
  · exact h.finishEntry r
  · split
    · exact (h.finishAccess r _ _).choose
    · dsimp only
      split
      · exact ((h.of_engine (State.bus_engine (s.reportLinkedRead_bus _ _ _ _))).finishAccess r _ _).choose
      · exact (h.finishAccess r _ _).choose

theorem State.StoreWithinBounds.partCompleted (r : BusAccess) : (s.partCompleted r).StoreWithinBounds := by
  unfold State.partCompleted
  split
  · exact (h.keepAccess r).of_store rfl
  · exact (h.keepAccess r).completeAccess r

theorem State.StoreWithinBounds.retryPart (r : BusAccess) : (s.retryPart r).StoreWithinBounds := by
  unfold State.retryPart
  dsimp only
  split
  · exact State.StoreWithinBounds.choose h
  · exact h.failAccess _ _

/-- A part that ended reaches the store only by what its access then comes to (R106). -/
theorem State.StoreWithinBounds.endPart : (s.modifyEngine Engine.endPart).StoreWithinBounds := h

end

end Sys2Proof.Machine
end

section
/-! Every command, and a tick of the timebase, keeps the bounds of the store (R121). -/

namespace Sys2Proof.Machine

/-! ### What leaves the engine as it was -/

theorem State.presentAccess_engine (s : State) (p : PortId) (a : Access) : (s.presentAccess p a).engine = s.engine := by
  unfold State.presentAccess
  split
  · exact (State.arrive_changesAt _ p a).1
  · rfl

theorem State.takeDenied_engine (s : State) (p : PortId) (c : Copy) (k : FaultKind) :
    (s.takeDenied p c k).engine = s.engine := by
  unfold State.takeDenied
  split
  · simp
  · split <;> simp

theorem State.takeNoWindow_engine (s : State) (p : PortId) : (s.takeNoWindow p).engine = s.engine := by
  unfold State.takeNoWindow
  split
  · simp
  · split <;> simp

theorem State.takePark_engine (s : State) (p : PortId) (w : WindowId) : (s.takePark p w).engine = s.engine := by
  unfold State.takePark
  split
  · simp
  · split <;> simp

theorem State.takeRelease_engine (s : State) (p : PortId) (w : WindowId) : (s.takeRelease p w).engine = s.engine := by
  unfold State.takeRelease
  split
  · split <;> simp
  · rfl

theorem State.takeRetire_engine (s : State) (p : PortId) (w : WindowId) : (s.takeRetire p w).engine = s.engine := by
  unfold State.takeRetire
  split
  · split <;> simp
  · rfl

/-! ### Offers (R34, R38) -/

section
variable {s : State} (h : s.StoreWithinBounds)
include h

theorem State.StoreWithinBounds.takeAdmitted (p : PortId) (c : Copy) : (s.takeAdmitted p c).StoreWithinBounds := by
  unfold State.takeAdmitted
  split
  · exact h.of_engine (by simp)
  · split
    · exact State.StoreWithinBounds.offer (h.of_engine (by simp)) p _ _
    · exact h

theorem State.StoreWithinBounds.offerAdded (p : PortId) : (s.offerAdded p).StoreWithinBounds := by
  unfold State.offerAdded
  split
  · exact h.offer p _ _
  · exact h

/-! ### Resets (R114, R174, R177) -/

theorem State.StoreWithinBounds.abandonCurrent (p : PortId) : (s.abandonCurrent p).StoreWithinBounds := by
  unfold State.abandonCurrent
  dsimp only
  split
  · exact h
  · exact h
  · exact h
  · exact h
  · refine h.of_store ?_
    simp
  · unfold State.abandonOnBus
    split
    · exact h
    · split
      · split
        · exact h
        · exact State.StoreWithinBounds.choose h
      · exact h

theorem State.StoreWithinBounds.resetPort (p : PortId) : (s.resetPort p).StoreWithinBounds := by
  refine (h.abandonCurrent p).of_engine ?_
  simp [State.resetPort]

end

theorem execDeviceReset_storeWithinBounds {st : Straps} {s t : State} (h : execDeviceReset st s = .next t) :
    t.StoreWithinBounds := by
  rw [← Host.Outcome.next.inj h]
  have held : ∀ (ps : List PortId) (u : State), u.StoreWithinBounds →
      (ps.foldl State.takeHeldReset u).StoreWithinBounds := by
    intro ps
    induction ps with
    | nil => exact fun _ hu => hu
    | cons p ps ih =>
      refine fun u hu => ih _ ?_
      unfold State.takeHeldReset
      split
      · exact hu.resetPort p
      · exact hu
  have empty : (s.deviceReset st).StoreWithinBounds := ⟨Nat.zero_le 16, fun _ => Nat.zero_le 8⟩
  exact (held allPorts _ empty).choose

/-! ### The events of the bus -/

section
variable {s t : State} (hs : s.StoreWithinBounds)
include hs

theorem execPartAck_storeWithinBounds {lanes : Word} {n : Nat} (h : execPartAck lanes s n = .next t) :
    t.StoreWithinBounds := by
  cases h
  split
  · exact hs
  · rename_i part _
    have ended := hs.endPart.of_engine (State.bus_engine (State.reportPart_bus _ part))
    dsimp only
    split
    · exact ended.endAbandoned _
    · exact ended.partCompleted _

theorem execPartErr_storeWithinBounds {n : Nat} (h : execPartErr s n = .next t) : t.StoreWithinBounds := by
  cases h
  split
  · exact hs
  · dsimp only
    split
    · exact hs.endPart.endAbandoned _
    · exact hs.endPart.failAccess _ _

theorem execPartRty_storeWithinBounds {n : Nat} (h : execPartRty s n = .next t) : t.StoreWithinBounds := by
  cases h
  split
  · exact hs
  · dsimp only
    split
    · exact hs.endPart.endAbandoned _
    · exact hs.endPart.retryPart _

theorem execResponseTimerExpiry_storeWithinBounds (h : execResponseTimerExpiry s = .next t) :
    t.StoreWithinBounds := by
  cases h
  split
  · exact hs
  · dsimp only
    split
    · exact hs.endPart.endAbandoned _
    · exact hs.endPart.failAccess _ _

theorem execRetryWaitExpiry_storeWithinBounds (h : execRetryWaitExpiry s = .next t) : t.StoreWithinBounds := by
  cases h
  split
  · exact State.StoreWithinBounds.choose hs
  · exact hs

theorem execExternalRequest_storeWithinBounds (h : execExternalRequest s = .next t) : t.StoreWithinBounds := by
  cases h
  split
  · exact hs
  · exact State.StoreWithinBounds.choose hs

theorem execExternalWithdraw_storeWithinBounds (h : execExternalWithdraw s = .next t) : t.StoreWithinBounds := by
  have withdrawn : (s.modifyEngine Engine.withdrawExternal).StoreWithinBounds := by
    refine hs.of_store ?_
    unfold State.modifyEngine Engine.withdrawExternal
    dsimp only
    split <;> rfl
  cases h
  split
  · exact withdrawn.choose
  · exact withdrawn

end

/-! ### Every command -/

theorem exec_storeWithinBounds {i : Instr} {s t : State} (h : exec i s = .next t) (hs : s.StoreWithinBounds) :
    t.StoreWithinBounds := by
  have off : t.bus = s.bus → t.StoreWithinBounds := fun e => hs.of_engine (State.bus_engine e)
  cases i with
  | accessArrival p a => cases h; exact hs.of_engine (s.presentAccess_engine _ _)
  | registerWrite p word value => cases h; exact hs.of_engine (s.presentAccess_engine _ _)
  | acknowledge p => cases h; exact hs.of_engine (s.presentAccess_engine _ _)
  | walk => exact off (execWalk_bus h)
  | admitAnswer p =>
    cases h
    split
    · exact State.StoreWithinBounds.takeAdmitted (hs.of_engine (s.setToPort_engine p _)) p _
    · exact hs
  | denyAnswer p =>
    cases h
    split
    · exact hs.of_engine (State.takeDenied_engine _ p _ _)
    · exact hs
  | noneAnswer p =>
    cases h
    split
    · exact hs.of_engine (State.takeNoWindow_engine _ p)
    · exact hs
  | parkAnswer p =>
    cases h
    split
    · exact hs.of_engine (State.takePark_engine _ p _)
    · exact hs
  | addition p =>
    cases h
    split
    · split
      · exact hs
      · exact State.StoreWithinBounds.offerAdded (hs.of_engine (State.bus_engine (by simp))) p
    · exact hs
  | subtraction sender => exact off (execSubtraction_bus h)
  | acknowledgement p => exact off (execAcknowledgement_bus h)
  | offlineNotice p => exact off (execOfflineNotice_bus h)
  | onlineNotice p => exact off (execOnlineNotice_bus h)
  | shootDown p => exact off (execShootDown_bus h)
  | releaseNotice p =>
    cases h
    split
    · exact hs.of_engine (State.takeRelease_engine _ p _)
    · exact hs
  | retireNotice p =>
    cases h
    split
    · exact hs.of_engine (State.takeRetire_engine _ p _)
    · exact hs
  | parkTimerExpiry p =>
    cases h
    split
    · exact hs.of_engine (s.endCurrent_changesAt p _ _).1
    · exact hs
  | define => cases h; exact off (s.windowRequest_bus _ _ fun t p c w => t.takeDefine_bus p c w)
  | amend => cases h; exact off (s.windowRequest_bus _ _ fun t p c w => t.takeAmend_bus p c w)
  | enable => cases h; exact off (s.windowRequest_bus _ _ fun t p c w => t.takeEnable_bus p c w)
  | hold => cases h; exact off (s.windowRequest_bus _ _ fun t p c w => t.takeHold_bus p c w)
  | release => cases h; exact off (s.windowRequest_bus _ _ fun t p c w => t.takeReleaseRequest_bus p c w)
  | retire => cases h; exact off (s.windowRequest_bus _ _ fun t p c w => t.takeRetireRequest_bus p c w)
  | setRights => cases h; exact off (s.windowRequest_bus _ _ fun t p c w => t.takeSetRights_bus p c w)
  | queryWindow => cases h; exact off (s.onTableRequest_bus _ _ fun p c t => t.takeQueryWindow_bus p c)
  | portOnline i => cases h; exact off (s.onPortRequest_bus _ i _ fun q c t => t.takeOnline_bus i q c)
  | portOffline i => cases h; exact off (s.onPortRequest_bus _ i _ fun q c t => t.takeOffline_bus i q c)
  | fence i => cases h; exact off (s.onPortRequest_bus _ i _ fun q c t => t.takeFence_bus i q c)
  | unfence i => cases h; exact off (s.onPortRequest_bus _ i _ fun q c t => t.takeUnfence_bus i q c)
  | clearFault i => cases h; exact off (s.onPortRequest_bus _ i _ fun q c t => t.takeClearFault_bus i q c)
  | queryPort i => cases h; exact off (s.onPortRequest_bus _ i _ fun q c t => t.takeQueryPort_bus i q c)
  | setParam i => cases h; exact off (s.onRequest_bus _ i _ fun c t => t.takeSetParam_bus i c)
  | clearDeviceFault i => cases h; exact off (s.onRequest_bus _ i _ fun c t => t.takeClearDeviceFault_bus i c)
  | queryDevice i => cases h; exact off (s.onRequest_bus _ i _ fun c t => t.takeQueryDevice_bus i c)
  | resultTaken p number result => cases h; exact off (s.postResult_bus _ _ _)
  | partAck lanes number => exact execPartAck_storeWithinBounds hs h
  | partErr number => exact execPartErr_storeWithinBounds hs h
  | partRty number => exact execPartRty_storeWithinBounds hs h
  | responseTimerExpiry => exact execResponseTimerExpiry_storeWithinBounds hs h
  | retryWaitExpiry => exact execRetryWaitExpiry_storeWithinBounds hs h
  | externalRequest => exact execExternalRequest_storeWithinBounds hs h
  | externalWithdraw => exact execExternalWithdraw_storeWithinBounds hs h
  | externalWriteAck addr size => exact off (execExternalWriteAck_bus (z := size) h)
  | entryFinishedReport p => exact off (execEntryFinishedReport_bus h)
  | portReset p =>
    cases h
    split
    · exact hs
    · exact State.StoreWithinBounds.resetPort (hs.of_engine (State.bus_engine (s.setResetInput_bus p true))) p
  | deviceReset straps => exact execDeviceReset_storeWithinBounds h
  | portResetRelease p => cases h; exact off (s.setResetInput_bus p false)

/-- Settles O52: the store gains an entry only in `State.accept`, behind both bounds, and no other operation adds to the
ports of its entries (`State.StoreWithinBounds.of_sublist`). -/
theorem storeKeepsWithinBounds : Obligations.StoreKeepsWithinBounds := by
  intro s t hs h
  unfold step at h
  split at h
  · cases h
    exact hs
  · exact exec_storeWithinBounds h hs

end Sys2Proof.Machine
end

section
/-! How a store entry on the bus ends (R119, R121, R123, R127 to R129): it leaves the store, the choices follow, its
subtraction and report are sent, and the oldest waiting write that now fits is accepted. -/

namespace Sys2Proof.Machine

/-! ### The end of the choices -/

/-- Where the choices leave the bus free, there is nothing left to grant (R98). -/
theorem State.Chooses.settled {s t : State} (h : s.Chooses t) :
    t.engine.holder = .free → t.engine.extRequest = false ∧ ∀ p, ¬ t.GrantsFirst p := by
  have held : ∀ (s : State) p r c, (s.started p r c).engine.holder ≠ .free := fun s p r c => by
    unfold State.started State.grantedEngine
    dsimp only
    split <;> nofun
  induction h with
  | external _ => exact nofun
  | nothing he hn => exact fun _ => ⟨he, hn⟩
  | @starts s p r c | @consumes s p r c => exact fun hh => absurd hh (held s p r c)
  | linkFailed _ _ _ _ _ _ _ ih => exact ih

/-- Choices made again right after choices do nothing (R98). -/
theorem State.choose_again (s : State) (links : Links) :
    State.choose { s.choose with links := links } = { s.choose with links := links } := by
  by_cases hh : s.choose.engine.holder = .free
  · have free : s.engine.holder = .free := by
      by_contra busy
      rw [State.choose_busy busy] at hh
      exact busy hh
    obtain ⟨unasked, ungranted⟩ := (State.choose_chooses free).settled hh
    have again : State.choose { s.choose with links := links } = State.arbitrate 7 { s.choose with links := links } :=
      if_pos (beq_iff_eq.2 hh)
    rw [again]
    exact State.arbitrate_idle (s := { s.choose with links := links }) unasked
      (State.chosenPort_none_iff.2 ungranted) 7
  · exact State.choose_busy hh

/-! ### What an entry's finish shows of a port's faults -/

/-- The unit v shows the fault record of u, and the port state of u unless a quiesce may have completed (R148, R170). -/
def PortUnit.FaultKept (u v : PortUnit) : Prop :=
  v.SameFault u ∧ (u.state ≠ .quiescing → v.state = u.state)

theorem PortUnit.FaultKept.refl (u : PortUnit) : u.FaultKept u := ⟨.refl u, fun _ => rfl⟩

theorem PortUnit.FaultKept.trans {u v w : PortUnit} (h : u.FaultKept v) (k : v.FaultKept w) : u.FaultKept w :=
  ⟨k.1.trans h.1, fun hu => (k.2 (h.2 hu ▸ hu)).trans (h.2 hu)⟩

theorem Units.wentOffline_state (us : Units) {p q : PortId} (b : Bool) (h : q ≠ p) :
    (us.wentOffline p b q).state = (us q).state := by
  unfold Units.wentOffline
  rcases (us p).offlineRequester with _ | ⟨x, n⟩ <;> simp [Units.put, h]

theorem State.linkFailure_faultKept {s t : State} {p : PortId} (r : BusAccess)
    (h : s.Becomes p ((s.port p).answered .linkFailed) t) (q : PortId) :
    (s.port q).FaultKept ((s.linkFailure t p r).port q) := by
  refine ⟨(State.linkFailure_shown r h q).1, fun active => ?_⟩
  change (t.port q).state = (s.port q).state
  by_cases hq : ((s.port p).answered .linkFailed).QuiesceMet
  · have other : q ≠ p := by
      rintro rfl
      exact active hq.1
    rw [(h.2 hq).2.1, Units.wentOffline_state _ _ other]
    simp [Units.put, other]
  · rw [h.1 hq]
    by_cases hqp : q = p <;> simp [State.port, hqp, PortUnit.answered]

theorem State.started_faultKept (s : State) (p : PortId) (r : BusAccess) (c : CurrentAccess) (q : PortId) :
    (s.port q).FaultKept ((s.started p r c).port q) := by
  refine ⟨(s.started_shown p r c q).1, fun _ => ?_⟩
  by_cases hq : q = p <;> simp [State.started, State.port, hq]

theorem State.Chooses.faultKept {s t : State} (h : s.Chooses t) (q : PortId) : (s.port q).FaultKept (t.port q) := by
  induction h with
  | external _ => exact .refl _
  | nothing _ _ => exact .refl _
  | @starts s p r c | @consumes s p r c => exact s.started_faultKept p r c q
  | linkFailed _ _ _ _ _ ht _ ih => exact (State.linkFailure_faultKept _ ht q).trans ih

theorem State.choose_faultKept (s : State) (q : PortId) : (s.port q).FaultKept (s.choose.port q) := by
  by_cases hh : s.engine.holder = .free
  · exact (State.choose_chooses hh).faultKept q
  · rw [State.choose_busy hh]
    exact .refl _

theorem State.admitWaiter_faultKept (s : State) (q : PortId) : (s.port q).FaultKept (s.admitWaiter.port q) := by
  unfold State.admitWaiter
  split
  · exact .refl _
  · rename_i p _
    split
    · exact .refl _
    · rw [State.accept_eq]
      by_cases hq : q = p
      · subst hq
        refine ⟨?_, fun _ => ?_⟩ <;> simp [State.modifyEngine, State.port, PortUnit.SameFault]
      · simpa [hq] using PortUnit.FaultKept.refl (s.port q)

/-! ### The waiting writes (R122, R123) -/

/-- A port of the waiting list waits with a posted write. -/
theorem State.WaitersWait.posted {s : State} {q : PortId} {a : Access} {adm : Admission} (h : s.WaitersWait)
    (hq : q ∈ s.engine.waitingList) (hc : (s.port q).current = .waiting a adm true) : adm.posted = true := by
  obtain ⟨_, _, hc', posted⟩ := h.2 q hq
  rw [hc] at hc'
  cases hc'
  exact posted

theorem State.waitingWrite_of {s : State} {p : PortId} {a : Access} {adm : Admission}
    (hc : (s.port p).current = .waiting a adm true) (posted : adm.posted = true) :
    s.waitingWrite p = some (a, adm) := by
  simp [State.waitingWrite, hc, posted]

/-- No waiting write fits, and none is accepted. -/
theorem State.admitWaiter_full {s : State} (h : ∀ q ∈ s.engine.waitingList, ¬ s.HasRoom q) : s.admitWaiter = s := by
  have unfit : s.engine.waitingList.find? s.waiterFits = none :=
    List.find?_eq_none.2 fun q hq hf => h q hq ((fits_iff s q).1 (Bool.and_eq_true_iff.1 hf).1)
  rw [State.admitWaiter, unfit]

/-- The oldest waiting write that fits is accepted. -/
theorem State.admitWaiter_oldest {s : State} {q : PortId} {older younger : List PortId} {a : Access} {adm : Admission}
    (hl : s.engine.waitingList = older ++ q :: younger) (unfit : ∀ x ∈ older, ¬ s.HasRoom x) (room : s.HasRoom q)
    (hc : (s.port q).current = .waiting a adm true) (posted : adm.posted = true) :
    s.admitWaiter = { s with
      ports := vput s.ports q { s.port q with
        current := .idle, answer := some (.done none), occupancyCopy := (s.port q).occupancyCopy + 1 }
      engine := { s.engine with
        store := s.engine.store ++ [entryOf q (s.port q).epoch a adm]
        waitingList := s.engine.waitingList.filter fun x => x ≠ q } } := by
  have write := State.waitingWrite_of hc posted
  have found : s.engine.waitingList.find? s.waiterFits = some q := by
    rw [List.find?_eq_some_iff_append]
    refine ⟨?_, older, younger, hl, fun x hx => ?_⟩
    · simp [State.waiterFits, (fits_iff s q).2 room, write]
    · have refused : s.fits x = false := by simpa using mt (fits_iff s x).1 (unfit x hx)
      simp [State.waiterFits, refused]
  have left : removePort q s.engine.waitingList = s.engine.waitingList.filter fun x => x ≠ q :=
    List.filter_congr fun x _ => by by_cases hx : x = q <;> simp [hx]
  rw [State.admitWaiter, found]
  simp only [write]
  rw [State.accept_eq, ← left]
  rfl

/-- No choice grants a write that waits for the store (R95, R122). -/
theorem State.notChosen_posted {s : State} {q : PortId} {a : Access} {adm : Admission}
    (ha : s.engine.access = none) (hc : (s.port q).current = .waiting a adm true) (posted : adm.posted = true) :
    s.NotChosen q := by
  refine ⟨fun b badm ho => ?_, fun x hx => absurd (ha.symm.trans hx) nofun⟩
  obtain ⟨offered, nonposted⟩ := ho
  rw [hc] at offered
  cases offered
  exact absurd (posted.symm.trans nonposted) nofun

/-! ### The finish (R127) -/

/-- The subtraction and the entry-finished report of the entry r have been sent (R127). -/
def State.entryReported (s : State) (r : BusAccess) : State :=
  { s with links := { s.links with
      engineToTable := s.links.engineToTable ++ [(r.window, r.epoch)]
      reports := vput s.links.reports r.origin (s.links.reports.get r.origin + 1) } }

/-- What follows the removal of an entry and its record, in the order that R127 lists (notes/assumptions/5.md). -/
def State.entryOver (s : State) (r : BusAccess) : State := (s.choose.entryReported r).admitWaiter.choose

theorem State.finishEntry_entryOver (s : State) (r : BusAccess) : s.finishEntry r =
    (s.modifyEngine fun g => ({ g with store := removeOldest r.origin g.store } : Engine).dropAccess).entryOver r := rfl

/-- The store without a port's oldest entry (R119). -/
theorem State.OldestEntry.removeOldest {s : State} {p : PortId} {e : StoreEntry} {before after : List StoreEntry}
    (h : s.OldestEntry p e before after) : Machine.removeOldest p s.engine.store = before ++ after := by
  obtain ⟨hs, hp, hb⟩ := h
  rw [hs, Machine.removeOldest, List.eraseP_append_right _ (by simpa using hb), List.eraseP_cons_of_pos (by simp [hp])]

section
variable (s : State) (r : BusAccess)

theorem State.entryOver_sent : ∃ sent more, (s.entryOver r).links.engineToTable =
    s.links.engineToTable ++ sent ++ (r.window, r.epoch) :: more := by
  obtain ⟨sent, first⟩ := s.choose_choicesOnly.sent
  obtain ⟨more, last⟩ := (s.choose.entryReported r).admitWaiter.choose_choicesOnly.sent
  refine ⟨sent, more, ?_⟩
  rw [State.entryOver, last]
  simp [State.entryReported, first]

theorem State.entryOver_reports : (s.entryOver r).links.reports =
    vput s.links.reports r.origin (s.links.reports.get r.origin + 1) := by
  simp [State.entryOver, State.entryReported]

theorem State.entryOver_config : (s.entryOver r).config = s.config := by
  simp [State.entryOver, State.entryReported]

theorem State.entryOver_faultKept (q : PortId) : (s.port q).FaultKept ((s.entryOver r).port q) :=
  ((s.choose_faultKept q).trans (State.admitWaiter_faultKept (s.choose.entryReported r) q)).trans
    (State.choose_faultKept _ q)

variable {s}

/-- Where no waiting write fits, the choices settle the event. -/
theorem State.entryOver_full (h : ∀ q ∈ s.engine.waitingList, ¬ s.HasRoom q) :
    s.entryOver r = s.choose.entryReported r := by
  have only := s.choose_choicesOnly
  have full : ∀ q ∈ (s.choose.entryReported r).engine.waitingList, ¬ (s.choose.entryReported r).HasRoom q := by
    unfold State.HasRoom State.entryReported
    rwa [only.store, only.waitingList]
  rw [State.entryOver, State.admitWaiter_full full]
  exact s.choose_again _

/-- The oldest waiting write that fits is accepted and answered, whatever the choices grant before and after it. -/
theorem State.entryOver_accepts {q : PortId} {older younger : List PortId} {a : Access} {adm : Admission}
    (ha : s.engine.access = none) (hl : s.engine.waitingList = older ++ q :: younger)
    (unfit : ∀ x ∈ older, ¬ s.HasRoom x) (room : s.HasRoom q)
    (hc : (s.port q).current = .waiting a adm true) (posted : adm.posted = true) :
    let t := s.entryOver r
    t.engine.store = s.engine.store ++ [entryOf q (s.port q).epoch a adm] ∧
    t.engine.waitingList = s.engine.waitingList.filter (fun x => x ≠ q) ∧
    (t.port q).current = .idle ∧ (t.port q).answer = some (.done none) ∧
    (t.port q).occupancyCopy = (s.port q).occupancyCopy + 1 := by
  intro t
  let m := s.choose.entryReported r
  let n := m.admitWaiter
  have only := s.choose_choicesOnly
  have chosen := State.choose_leavesPort (State.notChosen_posted ha hc posted)
  have unit : m.port q = { s.port q with slot := (m.port q).slot } := chosen.unit
  have rooms : ∀ x, m.HasRoom x ↔ s.HasRoom x := fun x => by
    unfold State.HasRoom
    rw [show m.engine.store = s.engine.store from only.store]
  have accepted : n = _ := State.admitWaiter_oldest (only.waitingList.trans hl)
    (fun x hx => mt (rooms x).1 (unfit x hx)) ((rooms q).2 room) (by rw [unit]; exact hc) posted
  have answered : n.port q = { m.port q with
      current := .idle, answer := some (.done none), occupancyCopy := (m.port q).occupancyCopy + 1 } := by
    simp [accepted, State.port]
  have idle : n.NotChosen q := by
    refine ⟨fun b badm ho => ?_, fun x hx => chosen.notChosen.2 x (by rw [accepted] at hx; exact hx)⟩
    rw [State.OffersAccess, answered] at ho
    exact absurd ho.1 nofun
  have after := n.choose_choicesOnly
  have kept : t.port q = { n.port q with slot := (t.port q).slot } := (State.choose_leavesPort idle).unit
  refine ⟨?_, ?_, ?_, ?_, ?_⟩
  · rw [show t.engine.store = n.engine.store from after.store, accepted, unit]
    exact congrArg (· ++ _) only.store
  · rw [show t.engine.waitingList = n.engine.waitingList from after.waitingList, accepted]
    exact congrArg (List.filter _) only.waitingList
  · rw [kept, answered]
  · rw [kept, answered]
  · rw [kept, answered, unit]

/-- With nothing in the store and no access offered, the bus stays free and nothing else changes. -/
theorem State.entryOver_idle (ha : s.engine.access = none) (he : s.engine.extRequest = false)
    (hs : s.engine.store = []) (hl : s.engine.waitingList = []) (hn : ∀ q a adm, ¬ s.OffersAccess q a adm) :
    s.entryOver r = s.entryReported r := by
  have nothing : ∀ q, ¬ s.HasCandidate q := by
    rintro q (⟨e, he, -⟩ | ⟨a, adm, ho⟩)
    · rw [hs] at he
      cases he
    · exact hn q a adm ho
  rw [State.entryOver_full r (by simp [hl]), State.choose_idle ha he nothing]

end

end Sys2Proof.Machine
end

section
/-! The two ways a store entry on the bus finishes: its last part ends ACK (R127, R141), or it fails, and its deferred
fault is routed by the port epoch (R128, R129). -/

namespace Sys2Proof.Machine

/-! ### ACK (R107, R119, R127) -/

/-- The parts completed of an entry do not matter to its removal (R107, R127). -/
theorem removeOldest_modifyOldest {f : StoreEntry → StoreEntry} (hf : ∀ e, (f e).port = e.port) (p : PortId) :
    ∀ l, removeOldest p (modifyOldest p f l) = removeOldest p l
  | [] => rfl
  | e :: rest => by
    have ih := removeOldest_modifyOldest hf p rest
    by_cases hp : e.port = p
    · simp [modifyOldest, removeOldest, hp, hf]
    · simpa [modifyOldest, removeOldest, hp] using ih

/-- The state in which the entry on the bus has left the store, and the record and its part are gone (R127). -/
def State.entryRemoved (s : State) (left : List StoreEntry) : State :=
  { s with engine := { s.engine.idled with store := left } }

/-- The last part of an entry: its report to the monitor, and the entry's finish. -/
theorem State.partCompleted_lastOfEntry {s : State} {r : BusAccess} {e : StoreEntry} {before after : List StoreEntry}
    (last : r.partsTotal ≤ r.partsDone + 1) (hs : r.fromStore = true) (hk : r.kind = .write)
    (ho : s.OldestEntry r.origin e before after) (assembled : Lanes) :
    ((s.modifyEngine Engine.endPart).reportPart (partAt r r.partsDone)).partCompleted
      { r with partsDone := r.partsDone + 1, assembled := assembled } =
    (State.entryRemoved { s with monitor := { s.monitor with
      reservations := s.brokenAt (partAt r r.partsDone).addr } } (before ++ after)).entryOver r := by
  have over_last : ¬ r.partsDone + 1 < r.partsTotal := not_lt.2 last
  have isWrite : (partAt r r.partsDone).isWrite = true := decide_eq_true (.inl hk)
  have removed := (removeOldest_modifyOldest (f := fun d => { d with partsDone := r.partsDone + 1 }) (fun _ => rfl)
    r.origin s.engine.store).trans ho.removeOldest
  rw [State.partCompleted, if_neg over_last, State.completeAccess, if_pos hs, State.finishEntry_entryOver,
    State.reportPart_eq, if_pos isWrite]
  simp only [State.keepAccess, State.modifyEngine, Engine.endPart, Engine.dropAccess, hs, if_true, removed]
  rfl

/-- Settles O40: the last part ends in `State.entryOver` from the state without the entry, and the cases of the waiting
list are `State.entryOver_full`, `State.entryOver_accepts` and `State.entryOver_idle`. -/
theorem partAckFinishesTheEntry : Obligations.PartAckFinishesTheEntry := by
  intro s r lanes e before after h last hs hk ho wait left fits
  let b := State.entryRemoved { s with monitor := { s.monitor with
    reservations := s.brokenAt (partAt r r.partsDone).addr } } left
  have event : exec (.partAck lanes s.engine.presented) s = .next (b.entryOver r) := by
    rw [exec_partAck_presents h, State.partCompleted_lastOfEntry last hs hk ho]
  obtain ⟨sent, more, subtracted⟩ := b.entryOver_sent r
  refine ⟨_, sent, more, event, subtracted, b.entryOver_reports r, fun full => ?_,
    fun q older younger a adm hl unfit room hc => ?_, fun he empty unlisted unoffered => ?_⟩
  · rw [State.entryOver_full (s := b) r full]
    have only := b.choose_choicesOnly
    exact ⟨only.store, only.waitingList, b.choose, State.choose_chooses rfl, rfl⟩
  · have posted := wait.posted (by rw [hl]; simp) hc
    exact State.entryOver_accepts (s := b) r rfl hl unfit room hc posted
  · rw [State.entryOver_idle (s := b) r rfl he empty unlisted unoffered]
    simp only [b, left, empty]
    rfl

/-! ### Failure (R128, R129) -/

/-- Port p's unit once the deferred fault f of its entry e is routed (R129). -/
def State.routedUnit (s : State) (p : PortId) (e : StoreEntry) (f : FaultInfo) : PortUnit :=
  if e.portEpoch = (s.port p).epoch then (s.port p).offered f else s.port p

/-- The configuration unit once the deferred fault f of port p's entry e is routed (R129, R161). -/
def State.routedConfig (s : State) (p : PortId) (e : StoreEntry) (f : FaultInfo) : ConfigUnit :=
  if e.portEpoch = (s.port p).epoch then s.config
  else if s.config.fault = none then
    { s.config with fault := some { info := f, origin := p }, alertLine := true }
  else { s.config with overflow := min (s.config.overflow + 1) 255 }

theorem State.offerDeviceFault_eq (s : State) (f : FaultInfo) (p : PortId) :
    s.offerDeviceFault f p = { s with config :=
      if s.config.fault = none then { s.config with fault := some { info := f, origin := p }, alertLine := true }
      else { s.config with overflow := min (s.config.overflow + 1) 255 } } := by
  unfold State.offerDeviceFault
  split <;> simp_all [raiseOverflow, Config.overflowMax]

theorem State.routeDeferred_eq (s : State) (e : StoreEntry) (f : FaultInfo) : s.routeDeferred e f =
    { s with ports := vput s.ports e.port (s.routedUnit e.port e f), config := s.routedConfig e.port e f } := by
  unfold State.routeDeferred State.routedUnit State.routedConfig
  by_cases epochs : e.portEpoch = (s.port e.port).epoch
  · simp only [epochs, beq_self_eq_true, if_true]
    simp [State.offerFault, State.modifyPort, State.setPort]
  · have same : vput s.ports e.port (s.port e.port) = s.ports := vput_self _ _
    have orphaned : ¬ (e.portEpoch == (s.port e.port).epoch) = true := by simpa using epochs
    rw [if_neg orphaned, if_neg epochs, if_neg epochs, same, State.offerDeviceFault_eq]

theorem PortUnit.offered_epoch (u : PortUnit) (f : FaultInfo) : (u.offered f).epoch = u.epoch := by
  unfold PortUnit.offered
  split_ifs <;> rfl

/-- A routed fault leaves the port's access, epoch and count as they were, and takes it neither into nor out of
QUIESCING. -/
theorem State.routedUnit_kept (s : State) (p : PortId) (e : StoreEntry) (f : FaultInfo) :
    (s.routedUnit p e f).current = (s.port p).current ∧ (s.routedUnit p e f).epoch = (s.port p).epoch ∧
    (s.routedUnit p e f).occupancyCopy = (s.port p).occupancyCopy ∧
    ((s.routedUnit p e f).state = .quiescing ↔ (s.port p).state = .quiescing) := by
  unfold State.routedUnit
  split
  · exact ⟨PortUnit.offered_current _ f, PortUnit.offered_epoch _ f, PortUnit.offered_occupancyCopy _ f,
      PortUnit.offered_quiescing _ f⟩
  · exact ⟨rfl, rfl, rfl, Iff.rfl⟩

/-- The failure of a store entry: its fault routed, and its finish. -/
theorem State.failAccess_entry {s : State} {r : BusAccess} {e : StoreEntry} {before after : List StoreEntry}
    (k : FaultKind) (hs : r.fromStore = true) (ho : s.OldestEntry r.origin e before after) :
    let f := deferredFaultOf k e r.partsTotal
    (s.modifyEngine Engine.endPart).failAccess r k =
      (State.entryRemoved { s with
        ports := vput s.ports r.origin (s.routedUnit r.origin e f)
        config := s.routedConfig r.origin e f } (before ++ after)).entryOver r := by
  have oldest : (s.modifyEngine Engine.endPart).oldestEntry r.origin = some e := State.oldestEntry_of ho
  have origin : e.port = r.origin := ho.2.1
  rw [State.failAccess, if_pos hs, oldest]
  dsimp only
  rw [State.finishEntry_entryOver, State.routeDeferred_eq, origin, deferredFault_eq]
  simp only [State.modifyEngine, Engine.endPart, Engine.dropAccess, ho.removeOldest]
  rfl

/-- Settles O42: the fault is routed (`State.routeDeferred_eq`), and the entry's finish keeps what the routing made of
the fault records (`State.entryOver_faultKept`, `State.entryOver_config`). -/
theorem failedEntryIsRouted : Obligations.FailedEntryIsRouted := by
  intro s r i k e before after h hi hs ho p f routed config left fits
  let b := State.entryRemoved { s with ports := vput s.ports p routed, config := config } left
  obtain ⟨n, fails⟩ := exec_fails h hi
  have event : exec i s = .next (b.entryOver r) := by
    rw [fails, State.failAccess_entry (r := { r with retryCount := n }) k hs ho]
    rfl
  have unit : ∀ q, b.port q = if q = p then routed else s.port q := fun q => by
    simp [b, State.entryRemoved, State.port]
  obtain ⟨current, epoch, occupancy, quiescing⟩ := s.routedUnit_kept p e f
  have kept : ∀ q, (b.port q).current = (s.port q).current ∧ (b.port q).epoch = (s.port q).epoch ∧
      (b.port q).occupancyCopy = (s.port q).occupancyCopy := fun q => by
    rw [unit]
    split
    · rename_i hq
      subst hq
      exact ⟨current, epoch, occupancy⟩
    · exact ⟨rfl, rfl, rfl⟩
  obtain ⟨⟨fault, overflow, line⟩, state⟩ := b.entryOver_faultKept r p
  rw [unit, if_pos rfl] at fault overflow line state
  obtain ⟨sent, more, subtracted⟩ := b.entryOver_sent r
  refine ⟨_, sent, more, event, b.entryOver_config r, fault, overflow, line, fun hq => state (mt quiescing.1 hq),
    subtracted, b.entryOver_reports r, fun wait => ⟨fun full => ?_, fun q older younger a adm hl unfit room hc => ?_⟩,
    fun he empty unlisted unoffered => ?_⟩
  · rw [State.entryOver_full (s := b) r full]
    have only := b.choose_choicesOnly
    exact ⟨only.store, only.waitingList, b.choose, State.choose_chooses rfl, rfl⟩
  · have posted := wait.posted (by rw [hl]; simp) hc
    obtain ⟨current, epoch, occupancy⟩ := kept q
    rw [← epoch, ← occupancy]
    exact State.entryOver_accepts (s := b) r rfl hl unfit room (current.trans hc) posted
  · have unoffered' : ∀ q a adm, ¬ b.OffersAccess q a adm := fun q a adm ⟨hc, posted⟩ =>
      unoffered q a adm ⟨(kept q).1.symm.trans hc, posted⟩
    rw [State.entryOver_idle (s := b) r rfl he empty unlisted unoffered']
    simp only [b, left, empty]
    rfl

end Sys2Proof.Machine
end

section
/-! The law of R147: what each operation of the part makes of the link epochs, of the reservations and of the records
that they name. Most operations only drop reservations (`State.Loosens`); the events of the table change one window at
a time (`State.ChangesWindow`); either keeps the law (`State.KeepsLinks`). -/

namespace Sys2Proof.Machine

/-! ### The law in terms of link epochs (R134, R143) -/

/-- The link epoch that a window with this body has: its epoch, exactly while it is LIVE (R134, R143). -/
def liveEpoch (b : Option WindowBody) : Option Epoch :=
  b.bind fun b => if b.phase = .live then some b.epoch else none

theorem liveEpoch_eq_some_iff {b : Option WindowBody} {e : Epoch} :
    liveEpoch b = some e ↔ ∃ c, b = some c ∧ c.phase = .live ∧ c.epoch = e := by
  rcases b with _ | c <;> simp [liveEpoch]

theorem liveEpoch_ne_none_iff {b : Option WindowBody} : liveEpoch b ≠ none ↔ ∃ c, b = some c ∧ c.phase = .live := by
  rcases b with _ | c <;> simp [liveEpoch]

theorem liveEpoch_live {b : WindowBody} (h : b.phase = .live) : liveEpoch (some b) = some b.epoch := by
  simp [liveEpoch, h]

theorem liveEpoch_not_live {b : WindowBody} (h : b.phase ≠ .live) : liveEpoch (some b) = none := by
  simp [liveEpoch, h]

section
variable {b : WindowBody}

/-- The pending operation that each state of a window allows (R13, R50). -/
theorem WindowBody.operationFits_iff : b.OperationFits ↔
    (b.phase = .staged ∧ b.pendingOp = none) ∨ (b.phase = .live ∧ b.pendingOp = none) ∨
    (b.phase = .live ∧ ∃ q n x, b.pendingOp = some (.revise q n x)) ∨
    (b.phase = .held ∧ ∃ q n x, b.pendingOp = some (.hold q n x)) ∨
    (b.phase = .draining ∧ ∃ q n, b.pendingOp = some (.retire q n)) := by
  unfold WindowBody.OperationFits
  rcases b.phase <;> rcases b.pendingOp with _ | _ | _ | _ <;> simp

theorem WindowBody.OperationFits.of_staged (hp : b.phase = .staged) (ho : b.pendingOp = none) : b.OperationFits :=
  operationFits_iff.2 (.inl ⟨hp, ho⟩)

theorem WindowBody.OperationFits.of_live (hp : b.phase = .live) (ho : b.pendingOp = none) : b.OperationFits :=
  operationFits_iff.2 (.inr (.inl ⟨hp, ho⟩))

theorem WindowBody.OperationFits.of_revise {q : PortId} {n : RequestNumber} {x : Bool} (hp : b.phase = .live)
    (ho : b.pendingOp = some (.revise q n x)) : b.OperationFits :=
  operationFits_iff.2 (.inr (.inr (.inl ⟨hp, q, n, x, ho⟩)))

theorem WindowBody.OperationFits.of_hold {q : PortId} {n : RequestNumber} {x : Bool} (hp : b.phase = .held)
    (ho : b.pendingOp = some (.hold q n x)) : b.OperationFits :=
  operationFits_iff.2 (.inr (.inr (.inr (.inl ⟨hp, q, n, x, ho⟩))))

theorem WindowBody.OperationFits.of_retire {q : PortId} {n : RequestNumber} (hp : b.phase = .draining)
    (ho : b.pendingOp = some (.retire q n)) : b.OperationFits :=
  operationFits_iff.2 (.inr (.inr (.inr (.inr ⟨hp, q, n, ho⟩))))

variable (h : b.OperationFits)
include h

theorem WindowBody.OperationFits.staged (hp : b.phase = .staged) : b.pendingOp = none := by
  simpa [operationFits_iff, hp] using h

theorem WindowBody.OperationFits.revise {q : PortId} {n : RequestNumber} {x : Bool}
    (ho : b.pendingOp = some (.revise q n x)) : b.phase = .live := by
  simpa [operationFits_iff, ho] using h

theorem WindowBody.OperationFits.hold {q : PortId} {n : RequestNumber} {x : Bool}
    (ho : b.pendingOp = some (.hold q n x)) : b.phase = .held := by
  simpa [operationFits_iff, ho] using h

theorem WindowBody.OperationFits.retire {q : PortId} {n : RequestNumber} (ho : b.pendingOp = some (.retire q n)) :
    b.phase = .draining := by
  simpa [operationFits_iff, ho] using h

end

/-- The pending operation of a record, if it is not FREE, fits its window's state (R13, R50). -/
def OperationsFit (b : Option WindowBody) : Prop := ∀ c, b = some c → c.OperationFits

theorem OperationsFit.free : OperationsFit none := by
  intro c hc
  cases hc

theorem OperationsFit.some {b : WindowBody} (h : b.OperationFits) : OperationsFit (some b) := by
  rintro _ ⟨⟩
  exact h

/-- The law in terms of `liveEpoch`: a reservation names a window that has a link epoch. -/
theorem State.linksFollowWindows_iff (s : State) :
    s.LinksFollowWindows ↔ (∀ w, OperationsFit (s.record w).body) ∧
      (∀ w, s.monitor.linkEpoch.get w = liveEpoch (s.record w).body) ∧
      ∀ p r, s.reservation p = some r → s.monitor.linkEpoch.get r.window ≠ none := by
  have follows : (∀ w e, s.monitor.linkEpoch.get w = some e ↔
      ∃ b, (s.record w).body = some b ∧ b.phase = .live ∧ b.epoch = e) ↔
      ∀ w, s.monitor.linkEpoch.get w = liveEpoch (s.record w).body :=
    forall_congr' fun w => (forall_congr' fun e => by rw [liveEpoch_eq_some_iff]).trans Option.ext_iff.symm
  unfold State.LinksFollowWindows
  rw [follows]
  refine and_congr_right fun _ => and_congr_right fun link => ?_
  simp only [link, liveEpoch_ne_none_iff]

/-! ### Operations that only drop reservations -/

/-- The records and the link epochs are those of s, and every reservation is one of s. -/
structure State.Loosens (s t : State) : Prop where
  records : t.table.records = s.table.records
  linkEpoch : t.monitor.linkEpoch = s.monitor.linkEpoch
  kept : ∀ p r, t.reservation p = some r → s.reservation p = some r

theorem State.Loosens.refl (s : State) : s.Loosens s := ⟨rfl, rfl, fun _ _ => id⟩

theorem State.Loosens.trans {s t u : State} (h : s.Loosens t) (k : t.Loosens u) : s.Loosens u :=
  ⟨k.records.trans h.records, k.linkEpoch.trans h.linkEpoch, fun p r => h.kept p r ∘ k.kept p r⟩

/-- An operation that leaves the records and the reservation monitor. -/
theorem State.Loosens.of_same {s t : State} (hr : t.table.records = s.table.records) (hm : t.monitor = s.monitor) :
    s.Loosens t :=
  ⟨hr, by rw [hm], fun p r h => by unfold State.reservation at *; rwa [hm] at h⟩

/-- The same before an operation that only drops reservations. -/
theorem State.Loosens.before {s t u : State} (h : u.Loosens t) (hr : u.table.records = s.table.records)
    (hm : u.monitor = s.monitor) : s.Loosens t :=
  (State.Loosens.of_same hr hm).trans h

/-- Both parts of R147's law are kept. -/
def State.KeepsLinks (s t : State) : Prop :=
  s.LinksFollowWindows → t.LinksFollowWindows ∧ (s.ReservationsHaveRights → t.ReservationsHaveRights)

theorem State.KeepsLinks.refl (s : State) : s.KeepsLinks s := fun h => ⟨h, id⟩

theorem State.KeepsLinks.trans {s t u : State} (h : s.KeepsLinks t) (k : t.KeepsLinks u) : s.KeepsLinks u := by
  intro hs
  obtain ⟨ht, first⟩ := h hs
  obtain ⟨hu, second⟩ := k ht
  exact ⟨hu, second ∘ first⟩

theorem State.Loosens.keepsLinks {s t : State} (h : s.Loosens t) : s.KeepsLinks t := by
  intro hs
  rw [State.linksFollowWindows_iff] at hs ⊢
  obtain ⟨fits, link, named⟩ := hs
  simp only [State.record_congr h.records, h.linkEpoch]
  refine ⟨⟨fits, link, fun p r hr => named p r (h.kept p r hr)⟩, fun rights p r hr => ?_⟩
  rw [State.record_congr h.records]
  exact rights p r (h.kept p r hr)

/-! ### A change of one window -/

/-- Window w takes the body b: its operation fits, its link epoch follows, and a reservation that still names it was
there before, its window is LIVE, and its port keeps the right that it had. -/
structure State.ChangesWindow (s t : State) (w : WindowId) (b : Option WindowBody) : Prop where
  body : ∀ v, (t.record v).body = if v = w then b else (s.record v).body
  fits : OperationsFit b
  link : ∀ v, t.monitor.linkEpoch.get v = if v = w then liveEpoch b else s.monitor.linkEpoch.get v
  kept : ∀ p r, t.reservation p = some r → s.reservation p = some r
  named : ∀ p r, t.reservation p = some r → r.window = w → ∃ c c', (s.record w).body = some c ∧ b = some c' ∧
    c'.phase = .live ∧ (c.rights.get p ≠ .noRight → c'.rights.get p ≠ .noRight)

theorem State.ChangesWindow.linksFollowWindows {s t : State} {w : WindowId} {b : Option WindowBody}
    (h : s.ChangesWindow t w b) (hs : s.LinksFollowWindows) : t.LinksFollowWindows := by
  rw [State.linksFollowWindows_iff] at hs ⊢
  obtain ⟨fits, link, named⟩ := hs
  refine ⟨fun v => ?_, fun v => ?_, fun p r hr => ?_⟩
  · rw [h.body]
    split
    · exact h.fits
    · exact fits v
  · rw [h.body, h.link]
    split
    · rfl
    · exact link v
  · rw [h.link]
    split
    · rename_i hw
      obtain ⟨-, c', -, hb, live, -⟩ := h.named p r hr hw
      exact liveEpoch_ne_none_iff.2 ⟨c', hb, live⟩
    · exact named p r (h.kept p r hr)

theorem State.ChangesWindow.reservationsHaveRights {s t : State} {w : WindowId} {b : Option WindowBody}
    (h : s.ChangesWindow t w b) (hs : s.ReservationsHaveRights) : t.ReservationsHaveRights := by
  intro p r hr
  obtain ⟨c, hc, right⟩ := hs p r (h.kept p r hr)
  rw [h.body]
  split
  · rename_i hw
    obtain ⟨d, d', hd, hd', -, keeps⟩ := h.named p r hr hw
    obtain rfl : c = d := by simpa [hw, hd, eq_comm] using hc
    exact ⟨d', hd', keeps right⟩
  · exact ⟨c, hc, right⟩

theorem State.KeepsLinks.of_change {s t : State} {w : WindowId} {b : Option WindowBody}
    (h : s.LinksFollowWindows → s.ChangesWindow t w b) : s.KeepsLinks t :=
  fun hs => ⟨(h hs).linksFollowWindows hs, (h hs).reservationsHaveRights⟩

/-- The body b' of a window stays LIVE exactly if b was, with the same epoch, and lowers no right to NONE. -/
structure StaysLinked (b b' : Option WindowBody) : Prop where
  live : liveEpoch b' = liveEpoch b
  rights : ∀ c', b' = some c' → c'.phase = .live →
    ∃ c, b = some c ∧ ∀ p, c.rights.get p ≠ .noRight → c'.rights.get p ≠ .noRight

/-- A body that is not LIVE any more than it was. -/
theorem StaysLinked.not_live {b b' : Option WindowBody} (h : liveEpoch b = none) (h' : liveEpoch b' = none) :
    StaysLinked b b' where
  live := h'.trans h.symm
  rights c' hc live := absurd h' (liveEpoch_ne_none_iff.2 ⟨c', hc, live⟩)

/-- A body whose state, epoch and rights are kept. -/
theorem StaysLinked.of_same {b b' : WindowBody} (hp : b'.phase = b.phase) (he : b'.epoch = b.epoch)
    (hr : b'.rights = b.rights) : StaysLinked (some b) (some b') where
  live := by simp [liveEpoch, hp, he]
  rights := by
    rintro _ ⟨⟩ -
    exact ⟨b, rfl, fun p => by rw [hr]; exact id⟩

section
variable {s t : State} {w : WindowId} {r : WindowRecord} (ht : t.table.records = vput s.table.records w r)
include ht

theorem State.body_of_vput (v : WindowId) : (t.record v).body = if v = w then r.body else (s.record v).body := by
  rw [State.record_of_vput ht]
  split <;> rfl

/-- A change of a record that the reservation monitor takes no part in. -/
theorem State.KeepsLinks.of_record (hm : t.monitor = s.monitor)
    (h : OperationsFit (s.record w).body → OperationsFit r.body ∧ StaysLinked (s.record w).body r.body) :
    s.KeepsLinks t := by
  refine .of_change (w := w) (b := r.body) fun hs => ?_
  rw [State.linksFollowWindows_iff] at hs
  obtain ⟨fits, link, named⟩ := hs
  obtain ⟨fits', live, rights⟩ := h (fits w)
  have kept : ∀ p, t.reservation p = s.reservation p := fun p => by simp [State.reservation, hm]
  refine ⟨State.body_of_vput ht, fits', fun v => ?_, fun p x hx => kept p ▸ hx, fun p x hx hw => ?_⟩
  · rw [hm]
    split
    · rename_i hv
      rw [hv, live, link]
    · rfl
  · have reserved := named p x (kept p ▸ hx)
    rw [hw, link, ← live] at reserved
    obtain ⟨c', hc', hlive⟩ := liveEpoch_ne_none_iff.1 reserved
    obtain ⟨c, hc, hr⟩ := rights c' hc' hlive
    exact ⟨c, c', hc, hc', hlive, hr p⟩

/-- A change of a record that was not LIVE, with its link epoch set: no reservation names it (R54, R58, R65). -/
theorem State.KeepsLinks.of_link (hm : t.monitor = s.monitor.linked w (liveEpoch r.body))
    (hb : liveEpoch (s.record w).body = none) (h : OperationsFit (s.record w).body → OperationsFit r.body) :
    s.KeepsLinks t := by
  refine .of_change (w := w) (b := r.body) fun hs => ?_
  rw [State.linksFollowWindows_iff] at hs
  obtain ⟨fits, link, named⟩ := hs
  have kept : ∀ p, t.reservation p = s.reservation p := fun p => by simp [State.reservation, hm, Monitor.linked]
  refine ⟨State.body_of_vput ht, h (fits w), fun v => by simp [hm, Monitor.linked], fun p x hx => kept p ▸ hx,
    fun p x hx hw => ?_⟩
  have reserved := named p x (kept p ▸ hx)
  rw [hw, link, hb] at reserved
  exact absurd rfl reserved

/-- A change of a record with the reservations that name its window broken, and its link epoch set (R143). -/
theorem State.KeepsLinks.of_break (hm : t.monitor = s.monitor)
    (h : OperationsFit (s.record w).body → OperationsFit r.body) :
    s.KeepsLinks (t.breakAndLink w (liveEpoch r.body)) := by
  refine .of_change (w := w) (b := r.body) fun hs => ?_
  rw [State.linksFollowWindows_iff] at hs
  obtain ⟨fits, -, -⟩ := hs
  have kept : ∀ p x, (t.breakAndLink w (liveEpoch r.body)).reservation p = some x →
      s.reservation p = some x ∧ x.window ≠ w := fun p x hx => by
    have same : t.reservation p = s.reservation p := by simp [State.reservation, hm]
    simpa [State.breakAndLink, State.breakWindow, Option.filter_eq_some_iff, same] using hx
  refine ⟨State.body_of_vput ht, h (fits w), fun v => ?_, fun p x hx => (kept p x hx).1,
    fun p x hx hw => absurd hw (kept p x hx).2⟩
  simp [State.breakAndLink, State.breakWindow, hm]

end

end Sys2Proof.Machine
end

section
/-! The operations that only drop reservations: those of the port units, of the engine and the arbiter, and of the
destinations of port and device requests (R136, R139, R141, R143, R146). -/

namespace Sys2Proof.Machine

/-! ### The reservation monitor, the channels and the slots -/

theorem State.setReservation_loosens (s : State) (p : PortId) : s.Loosens (s.setReservation p none) where
  records := rfl
  linkEpoch := rfl
  kept q r h := by
    rw [State.setReservation_reservation_at] at h
    split at h
    · cases h
    · exact h

theorem State.keepReservations_loosens (s : State) (keep : Reservation → Bool) :
    s.Loosens (s.keepReservations keep) where
  records := rfl
  linkEpoch := rfl
  kept q r h := by
    rw [State.keepReservations_reservation_at] at h
    exact (Option.filter_eq_some_iff.1 h).1

theorem State.setPermission_loosens (s : State) (p : PortId) (b : Bool) : s.Loosens (s.setPermission p b) :=
  ⟨rfl, rfl, fun _ _ => id⟩

theorem State.sendToTable_loosens (s : State) (p : PortId) (m : PortMessage) : s.Loosens (s.sendToTable p m) :=
  .of_same (by simp) (by simp)

theorem State.takeFromPort_loosens (s : State) (p : PortId) (l : List PortMessage) : s.Loosens (s.takeFromPort p l) :=
  .of_same (by simp) (by simp)

theorem State.clearSlot_loosens (s : State) (p : PortId) : s.Loosens (s.clearSlot p) := .of_same (by simp) (by simp)

theorem State.evaluateQuiesce_loosens (s : State) (p : PortId) : s.Loosens (s.evaluateQuiesce p) :=
  .of_same (by simp) (by simp)

theorem State.dropForLinkedRead_loosens (s : State) (p : PortId) (h : AccessHead) :
    s.Loosens (s.dropForLinkedRead p h) := by
  unfold State.dropForLinkedRead
  split
  · exact s.setReservation_loosens p
  · exact .refl s

theorem State.reportPart_loosens (s : State) (part : BusPart) : s.Loosens (s.reportPart part) := by
  unfold State.reportPart
  split
  · exact s.keepReservations_loosens _
  · exact .refl s

/-! ### The arbiter and the engine -/

theorem State.examine_loosens (s : State) (r : BusAccess) (start : State → State)
    (h : ∀ t : State, t.Loosens (start t)) : s.Loosens (s.examine r start).state := by
  rcases s.examine_cases r start with ⟨-, -, e⟩ | ⟨-, -, e⟩ | ⟨-, e⟩ <;> rw [e]
  · exact (s.setReservation_loosens r.origin).trans (h _)
  · exact .of_same (by simp [GrantResult.state]) (by simp [GrantResult.state])
  · exact h s

theorem State.presentPart_loosens (s : State) : s.Loosens s.presentPart := .of_same rfl rfl

theorem State.startPart_loosens (s : State) : s.Loosens s.startPart := .of_same rfl rfl

theorem State.grant_loosens (s : State) (p : PortId) : s.Loosens (s.grant p).state := by
  have seized : ∀ r, s.Loosens (s.seizeBus p r) := fun _ => .of_same rfl rfl
  unfold State.grant
  split
  · exact (seized _).trans (State.examine_loosens _ _ _ State.presentPart_loosens)
  · split
    · exact (seized _).trans (State.examine_loosens _ _ _ State.startPart_loosens)
    · exact .before (State.examine_loosens _ _ _ State.startPart_loosens) rfl rfl
    · exact .refl s

theorem State.choose_loosens (s : State) : s.Loosens s.choose :=
  State.choose_induction (P := fun t => s.Loosens t)
    (fun _ h => h.trans (.of_same rfl rfl))
    (fun t p _ h => h.trans (t.grant_loosens p)) s (.refl s)

/-- A choice after an operation that leaves the records and the monitor. -/
theorem State.Loosens.choose {s t : State} (hr : t.table.records = s.table.records) (hm : t.monitor = s.monitor) :
    s.Loosens t.choose :=
  t.choose_loosens.before hr hm

theorem State.offer_loosens (s : State) (p : PortId) (a : Access) (adm : Admission) : s.Loosens (s.offer p a adm) := by
  unfold State.offer
  split
  · split
    · exact .choose (by simp) (by simp)
    · exact .of_same rfl rfl
  · exact .choose rfl rfl

theorem State.finishEntry_loosens (s : State) (r : BusAccess) : s.Loosens (s.finishEntry r) := by
  let t := s.modifyEngine fun g => ({ g with store := removeOldest r.origin g.store } : Engine).dropAccess
  have first : s.Loosens t.choose := .choose rfl rfl
  have second : t.choose.Loosens (t.entryOver r) := by
    refine .choose ?_ ?_ <;> simp [State.entryReported]
  exact first.trans second

theorem State.endAbandoned_loosens (s : State) (r : BusAccess) : s.Loosens (s.endAbandoned r) := .choose rfl rfl

theorem State.finishAccess_choose_loosens (s : State) (r : BusAccess) (a : Answer) (f : Option FaultInfo) :
    s.Loosens (s.finishAccess r a f).choose :=
  .choose (by simp) (by simp)

theorem State.failAccess_loosens (s : State) (r : BusAccess) (k : FaultKind) : s.Loosens (s.failAccess r k) := by
  unfold State.failAccess
  split
  · split
    · exact s.finishEntry_loosens r
    · exact .before (State.finishEntry_loosens _ r) (by simp) (by simp)
  · split <;> exact s.finishAccess_choose_loosens r _ _

theorem State.retryPart_loosens (s : State) (r : BusAccess) : s.Loosens (s.retryPart r) := by
  unfold State.retryPart
  dsimp only
  split
  · exact .choose rfl rfl
  · exact s.failAccess_loosens _ _

/-! ### Arrivals, walks and parks -/

theorem State.issue_loosens (s : State) (p : PortId) : s.Loosens (s.issue p) := by
  unfold State.issue State.sendRequest
  dsimp only
  split
  · split
    · exact .of_same (by simp) (by simp)
    · split <;> exact .of_same rfl rfl
  · exact .of_same rfl rfl

theorem State.accessSlot_loosens (s : State) (p : PortId) (a : Access) : s.Loosens (s.accessSlot p a) := by
  have write : ∀ w v, s.Loosens (s.writeSlot p w v) := fun w v => by
    cases w with
    | plain w => exact .of_same rfl rfl
    | issue => exact s.issue_loosens p
    | acknowledge => exact .of_same rfl rfl
  unfold State.accessSlot
  split
  · exact .of_same rfl rfl
  · split
    · exact (write _ _).trans (.of_same rfl rfl)
    · exact .of_same rfl rfl

theorem State.hitEntry_loosens (s : State) (p : PortId) (a : Access) (i : Fin 4) (c : Copy) :
    s.Loosens (s.hitEntry p a i c) := by
  unfold State.hitEntry
  dsimp only
  split
  · exact .of_same (by simp) (by simp)
  · have waiting : s.Loosens ((s.setLookaside p ((s.port p).lookaside.touch i)).setCurrent p
        (.waiting a (c.admission a.toAccessHead) false)) := .of_same rfl rfl
    exact (waiting.trans (State.dropForLinkedRead_loosens _ p a.toAccessHead)).trans (State.sendToTable_loosens _ p _)

theorem State.checkArrival_loosens (s : State) (p : PortId) (a : Access) : s.Loosens (s.checkArrival p a) := by
  unfold State.checkArrival State.lookUp
  split
  · exact .of_same (by simp) (by simp)
  · split
    · split
      · exact .of_same rfl rfl
      · exact s.accessSlot_loosens p a
    · split
      · exact s.hitEntry_loosens p a _ _
      · exact .of_same (by simp) (by simp)

theorem State.arrive_loosens (s : State) (p : PortId) (a : Access) : s.Loosens (s.arrive p a) := by
  have answered : s.Loosens (s.answer p .error) := .of_same rfl rfl
  have slot := s.accessSlot_loosens p a
  unfold State.arrive
  split
  · exact answered
  · split
    · exact answered
    · split
      · exact slot
      · exact answered
    · split
      · exact slot
      · exact answered
    · exact s.checkArrival_loosens p a

theorem State.presentAccess_loosens (s : State) (p : PortId) (a : Access) : s.Loosens (s.presentAccess p a) := by
  unfold State.presentAccess
  split
  · exact .before (State.arrive_loosens _ p a) rfl rfl
  · exact .refl s

theorem State.takeAdmitted_loosens (s : State) (p : PortId) (c : Copy) : s.Loosens (s.takeAdmitted p c) := by
  unfold State.takeAdmitted
  split
  · exact .of_same (by simp) (by simp)
  · split
    · exact .before ((State.dropForLinkedRead_loosens _ p _).trans (State.offer_loosens _ p _ _)) rfl rfl
    · exact .refl s

theorem State.takeDenied_loosens (s : State) (p : PortId) (c : Copy) (k : FaultKind) :
    s.Loosens (s.takeDenied p c k) := by
  unfold State.takeDenied
  split
  · exact .of_same (by simp) (by simp)
  · split
    · exact .of_same (by simp) (by simp)
    · exact .refl s

theorem State.takeNoWindow_loosens (s : State) (p : PortId) : s.Loosens (s.takeNoWindow p) := by
  unfold State.takeNoWindow
  split
  · exact .of_same (by simp) (by simp)
  · split
    · exact .of_same (by simp) (by simp)
    · exact .refl s

theorem State.takePark_loosens (s : State) (p : PortId) (w : WindowId) : s.Loosens (s.takePark p w) := by
  unfold State.takePark
  split
  · exact .of_same (by simp) (by simp)
  · split
    · exact .of_same rfl rfl
    · exact .refl s

theorem State.takeRelease_loosens (s : State) (p : PortId) (w : WindowId) : s.Loosens (s.takeRelease p w) := by
  unfold State.takeRelease
  split
  · split
    · exact .of_same (by simp) (by simp)
    · exact .refl s
  · exact .refl s

theorem State.takeRetire_loosens (s : State) (p : PortId) (w : WindowId) : s.Loosens (s.takeRetire p w) := by
  unfold State.takeRetire
  split
  · split
    · exact .of_same (by simp) (by simp)
    · exact .refl s
  · exact .refl s

/-- An access that waits to be offered when the table takes its addition (R34). -/
theorem State.offerAdded_loosens (s : State) (p : PortId) : s.Loosens (s.offerAdded p) := by
  unfold State.offerAdded
  split
  · exact s.offer_loosens p _ _
  · exact .refl s

/-! ### Port resets (R173, R174) -/

theorem State.abandonCurrent_loosens (s : State) (p : PortId) : s.Loosens (s.abandonCurrent p) := by
  have idle : s.Loosens (s.setCurrent p .idle) := .of_same rfl rfl
  unfold State.abandonCurrent
  dsimp only
  split
  · exact idle
  · exact .of_same rfl rfl
  · exact idle
  · exact idle
  · exact .of_same (by simp) (by simp)
  · refine idle.trans ?_
    unfold State.abandonOnBus
    split
    · exact .refl _
    · split
      · split
        · exact .of_same rfl rfl
        · exact .choose rfl rfl
      · exact .refl _

theorem State.resetPort_loosens (s : State) (p : PortId) : s.Loosens (s.resetPort p) := by
  have reset : (s.abandonCurrent p).Loosens ((s.abandonCurrent p).modifyPort p PortUnit.afterReset) := .of_same rfl rfl
  exact (((s.abandonCurrent_loosens p).trans reset).trans (State.setReservation_loosens _ p)).trans
    (.trans (State.clearSlot_loosens _ p) (State.evaluateQuiesce_loosens _ p))

theorem State.takeHeldReset_loosens (s : State) (p : PortId) : s.Loosens (s.takeHeldReset p) := by
  unfold State.takeHeldReset
  split
  · exact s.resetPort_loosens p
  · exact .refl s

/-! ### Port and device requests -/

theorem State.onRequest_loosens (s : State) (kind : RequestKind) (issuer : PortId) (act : Captured → State → State)
    (h : ∀ c (t : State), t.Loosens (act c t)) : s.Loosens (s.onRequest kind issuer act) := by
  unfold State.onRequest
  split
  · exact .refl s
  · split
    · exact .before (h _ _) rfl rfl
    · exact .refl s

theorem State.onPortRequest_loosens (s : State) (kind : RequestKind) (issuer : PortId)
    (act : PortId → Captured → State → State) (h : ∀ q c (t : State), t.Loosens (act q c t)) :
    s.Loosens (s.onPortRequest kind issuer act) :=
  s.onRequest_loosens kind issuer _ fun c t => by
    split
    · exact h _ _ _
    · exact .of_same (by simp) (by simp)

theorem State.reply_loosens (s : State) (p : PortId) (c : Captured) (code : ResultCode) :
    s.Loosens (s.reply p c code) :=
  .of_same (by simp [State.reply]) (by simp [State.reply])

/-- A change of a port's unit, answered at once. -/
theorem State.modifyPort_reply_loosens (s : State) (q p : PortId) (f : PortUnit → PortUnit) (c : Captured)
    (code : ResultCode) : s.Loosens ((s.modifyPort q f).reply p c code) :=
  .before (State.reply_loosens _ p c code) rfl rfl

theorem State.takeOnline_loosens (s : State) (issuer target : PortId) (c : Captured) :
    s.Loosens (s.takeOnline issuer target c) := by
  unfold State.takeOnline
  split
  · exact s.reply_loosens _ _ _
  · split
    · exact s.reply_loosens _ _ _
    · refine .trans (.before (State.setPermission_loosens _ target true) ?_ ?_) (State.reply_loosens _ _ _ _)
      all_goals simp

theorem State.takeOffline_loosens (s : State) (issuer target : PortId) (c : Captured) :
    s.Loosens (s.takeOffline issuer target c) := by
  unfold State.takeOffline
  dsimp only
  split_ifs
  · exact s.reply_loosens _ _ _
  · exact s.reply_loosens _ _ _
  · exact s.reply_loosens _ _ _
  · exact .before (((State.setReservation_loosens _ target).trans (State.setPermission_loosens _ target false)).trans
      (State.evaluateQuiesce_loosens _ target)) rfl rfl
  · exact s.reply_loosens _ _ _

theorem State.takeFence_loosens (s : State) (issuer target : PortId) (c : Captured) :
    s.Loosens (s.takeFence issuer target c) := by
  unfold State.takeFence
  split_ifs
  · exact s.reply_loosens _ _ _
  · exact s.reply_loosens _ _ _
  · exact s.modifyPort_reply_loosens _ _ _ _ _
  · exact s.reply_loosens _ _ _

theorem State.takeUnfence_loosens (s : State) (issuer target : PortId) (c : Captured) :
    s.Loosens (s.takeUnfence issuer target c) := by
  unfold State.takeUnfence
  split_ifs
  · exact s.reply_loosens _ _ _
  · exact s.modifyPort_reply_loosens _ _ _ _ _
  · exact s.reply_loosens _ _ _

theorem State.takeClearFault_loosens (s : State) (issuer target : PortId) (c : Captured) :
    s.Loosens (s.takeClearFault issuer target c) := by
  unfold State.takeClearFault
  split
  · exact s.modifyPort_reply_loosens _ _ _ _ _
  · exact s.reply_loosens _ _ _

theorem State.takeQueryPort_loosens (s : State) (issuer target : PortId) (c : Captured) :
    s.Loosens (s.takeQueryPort issuer target c) := by
  unfold State.takeQueryPort
  split
  · split
    · exact .of_same (by simp) (by simp)
    · exact s.reply_loosens _ _ _
  · exact s.reply_loosens _ _ _

theorem State.takeSetParam_loosens (s : State) (issuer : PortId) (c : Captured) :
    s.Loosens (s.takeSetParam issuer c) := by
  unfold State.takeSetParam
  split_ifs
  · exact s.reply_loosens _ _ _
  · exact s.reply_loosens _ _ _
  · split
    · exact .before (State.reply_loosens _ _ _ _) rfl rfl
    · exact s.reply_loosens _ _ _

theorem State.takeClearDeviceFault_loosens (s : State) (issuer : PortId) (c : Captured) :
    s.Loosens (s.takeClearDeviceFault issuer c) := by
  unfold State.takeClearDeviceFault
  split
  · exact .before (State.reply_loosens _ _ _ _) rfl rfl
  · exact s.reply_loosens _ _ _

theorem State.takeQueryDevice_loosens (s : State) (issuer : PortId) (c : Captured) :
    s.Loosens (s.takeQueryDevice issuer c) := by
  unfold State.takeQueryDevice
  split
  · split
    · exact .of_same (by simp) (by simp)
    · exact s.reply_loosens _ _ _
  · exact s.reply_loosens _ _ _

end Sys2Proof.Machine
end

section
/-! The events of the table: counts, acknowledgements and evaluations leave a window as LIVE as it was, and each window
request keeps its window's link epoch and breaks the reservations that R143 names. -/

namespace Sys2Proof.Machine

/-! ### Counts, sets and evaluations (R10 to R16) -/

/-- A change of counts or of the outstanding set. -/
theorem State.setBody_keepsLinks {s : State} {w : WindowId} {b b' : WindowBody} (hb : (s.record w).body = some b)
    (hp : b'.phase = b.phase) (he : b'.epoch = b.epoch) (hr : b'.rights = b.rights) (ho : b'.pendingOp = b.pendingOp) :
    s.KeepsLinks (s.setBody w (some b')) := by
  refine .of_record (w := w) rfl rfl fun fits => ⟨.some ?_, ?_⟩
  · simpa only [WindowBody.OperationFits, hp, ho] using fits b hb
  · rw [hb]
    exact .of_same hp he hr

theorem State.modifyCount_keepsLinks (s : State) (w : WindowId) (e : Epoch) (f : Nat → Nat) :
    s.KeepsLinks (s.modifyCount w e f) := by
  rcases hb : (s.record w).body with _ | b
  · refine .of_record (w := w) rfl rfl fun fits => ?_
    simp only [hb, Option.map_none]
    exact ⟨.free, .not_live rfl rfl⟩
  · rw [State.modifyCount_eq hb]
    exact State.setBody_keepsLinks hb rfl rfl rfl rfl

/-- An evaluation frees a DRAINING window only, and leaves the state, the epoch and the rights of any other (R14). -/
theorem evaluatedRecord_staysLinked {b : WindowBody} (h : b.OperationFits) (g : Generation) :
    OperationsFit (evaluatedRecord g b).body ∧ StaysLinked (some b) (evaluatedRecord g b).body := by
  have same : OperationsFit (some b) ∧ StaysLinked (some b) (some b) := ⟨.some h, .of_same rfl rfl rfl⟩
  unfold evaluatedRecord
  split
  · unfold WindowBody.finished
    split
    · exact same
    · rename_i ho
      exact ⟨.some (.of_hold (h.hold ho) rfl), .of_same rfl rfl rfl⟩
    · rename_i ho
      exact ⟨.free, .not_live (liveEpoch_not_live (by simp [h.retire ho])) rfl⟩
    · rename_i ho
      exact ⟨.some (.of_live (h.revise ho) rfl), .of_same rfl rfl rfl⟩
  · exact same

theorem State.evaluate_keepsLinks (s : State) (w : WindowId) : s.KeepsLinks (s.evaluate w) := by
  rcases hb : (s.record w).body with _ | b
  · rw [s.evaluate_free w hb]
    exact .refl s
  · obtain ⟨-, table, -, -, monitor, -⟩ := s.evaluate_spec w b hb
    refine .of_record (congrArg Table.records table) monitor fun fits => ?_
    rw [hb]
    exact evaluatedRecord_staysLinked (fits b hb) _

/-- Port p leaves the outstanding set of a window, whose pending operation is then evaluated (R16). -/
theorem State.removeOutstanding_keepsLinks {s : State} {w : WindowId} {b : WindowBody} (hb : (s.record w).body = some b)
    (p : PortId) : s.KeepsLinks ((s.setBody w (some (b.removeOutstanding p))).evaluate w) := by
  refine .trans ?_ (State.evaluate_keepsLinks _ w)
  exact State.setBody_keepsLinks hb rfl rfl rfl rfl

theorem State.acknowledge_keepsLinks (s : State) (p : PortId) (w : WindowId) (g : Generation) :
    s.KeepsLinks (s.acknowledge p w g) := by
  unfold State.acknowledge
  split
  · exact .refl s
  · rename_i hb
    split
    · exact State.removeOutstanding_keepsLinks hb p
    · exact .refl s

theorem State.leaveSet_keepsLinks (s : State) (p : PortId) (w : WindowId) : s.KeepsLinks (s.leaveSet p w) := by
  unfold State.leaveSet
  split
  · exact .refl s
  · rename_i hb
    split
    · exact State.removeOutstanding_keepsLinks hb p
    · exact .refl s

theorem State.subtract_keepsLinks (s : State) (w : WindowId) (e : Epoch) : s.KeepsLinks (s.subtract w e) :=
  (s.modifyCount_keepsLinks w e _).trans (State.evaluate_keepsLinks _ w)

/-! ### What the table takes from its channels -/

theorem State.takeWalk_keepsLinks (s : State) (p : PortId) (h : AccessHead) : s.KeepsLinks (s.takeWalk p h) := by
  have taken : s.Loosens (s.walkTaken p) := .of_same (by simp [State.walkTaken]) (by simp [State.walkTaken])
  have sent : ∀ (t : State) m, t.Loosens (t.sendToPort p m) := fun _ _ => .of_same rfl rfl
  rw [State.takeWalk_eq]
  refine (taken.keepsLinks.trans ?_).trans (sent _ _).keepsLinks
  unfold State.countAnswer
  split
  · exact State.modifyCount_keepsLinks _ _ _ _
  · exact .refl _

theorem execWalk_keepsLinks {s t : State} (h : execWalk s = .next t) : s.KeepsLinks t := by
  cases h
  split
  · exact .refl s
  · split
    · exact .refl s
    · exact s.takeWalk_keepsLinks _ _

theorem execAddition_keepsLinks {p : PortId} {s t : State} (h : execAddition p s = .next t) : s.KeepsLinks t := by
  cases h
  split
  · split
    · exact .refl s
    · exact (((s.takeFromPort_loosens p _).keepsLinks.trans (State.modifyCount_keepsLinks _ _ _ _)).trans
        (State.evaluate_keepsLinks _ _)).trans (State.offerAdded_loosens _ p).keepsLinks
  · exact .refl s

theorem execSubtraction_keepsLinks {sender : SubtractionSender} {s t : State}
    (h : execSubtraction sender s = .next t) : s.KeepsLinks t := by
  cases h
  split
  · split
    · exact (s.takeFromPort_loosens _ _).keepsLinks.trans (State.subtract_keepsLinks _ _ _)
    · exact .refl s
  · split
    · rename_i rest _
      have taken : s.Loosens { s with links := { s.links with engineToTable := rest } } := .of_same rfl rfl
      exact taken.keepsLinks.trans (State.subtract_keepsLinks _ _ _)
    · exact .refl s

theorem execAcknowledgement_keepsLinks {p : PortId} {s t : State} (h : execAcknowledgement p s = .next t) :
    s.KeepsLinks t := by
  cases h
  split
  · exact (s.takeFromPort_loosens p _).keepsLinks.trans (State.acknowledge_keepsLinks _ _ _ _)
  · exact .refl s

/-- One operation after another, over a list. -/
theorem State.foldl_keepsLinks {α : Type} (f : State → α → State) (h : ∀ (t : State) x, t.KeepsLinks (f t x))
    (l : List α) (s : State) : s.KeepsLinks (l.foldl f s) := by
  induction l generalizing s with
  | nil => exact .refl s
  | cons x l ih => exact (h s x).trans (ih _)

theorem execOfflineNotice_keepsLinks {p : PortId} {s t : State} (h : execOfflineNotice p s = .next t) :
    s.KeepsLinks t := by
  cases h
  split
  · rename_i rest _
    have viewed : s.Loosens ((s.takeFromPort p rest).setView p true) :=
      (s.takeFromPort_loosens p rest).trans (.of_same rfl rfl)
    exact viewed.keepsLinks.trans (State.foldl_keepsLinks _ (fun t w => t.leaveSet_keepsLinks p w) _ _)
  · exact .refl s

theorem execOnlineNotice_keepsLinks {p : PortId} {s t : State} (h : execOnlineNotice p s = .next t) :
    s.KeepsLinks t := by
  cases h
  split
  · exact ((s.takeFromPort_loosens p _).trans (.of_same rfl rfl)).keepsLinks
  · exact .refl s

/-! ### The parts of a window request -/

theorem State.takeTableRequest_loosens (s : State) (p : PortId) : s.Loosens (s.takeTableRequest p) :=
  .of_same rfl rfl

theorem State.refuse_loosens (s : State) (p : PortId) (c : Captured) (code : ResultCode) (g : Option Generation) :
    s.Loosens (s.refuse p c code g) :=
  .of_same (by simp [State.refuse]) (by simp [State.refuse])

theorem State.postDone_loosens (s : State) (w : WindowId) (p : PortId) (c : Captured) : s.Loosens (s.postDone w p c) :=
  .of_same (by simp [State.postDone]) (by simp [State.postDone])

theorem State.postCancelled_loosens (s : State) (w : WindowId) (op : Option PendingOp) :
    s.Loosens (s.postCancelled w op) := by
  unfold State.postCancelled
  split
  · exact .of_same (by simp) (by simp)
  · exact .refl s

theorem State.sendToPorts_loosens (s : State) (ps : List PortId) (m : TableMessage) : s.Loosens (s.sendToPorts ps m) :=
  .of_same (by simp) (by simp)

theorem State.onTableRequest_keepsLinks (s : State) (kind : RequestKind) (act : PortId → Captured → State → State)
    (h : ∀ p c t, State.KeepsLinks t (act p c t)) : s.KeepsLinks (s.onTableRequest kind act) := by
  unfold State.onTableRequest
  split
  · exact .refl s
  · split
    · exact (s.takeTableRequest_loosens _).keepsLinks.trans (h _ _ _)
    · exact .refl s

/-- A window request that the arbiter chooses, examined (R49). -/
theorem State.windowRequest_keepsLinks (s : State) (kind : RequestKind)
    (act : PortId → Captured → WindowId → State → State)
    (h : ∀ (t : State) p c w, (t.record w).condition kind = none → t.KeepsLinks (act p c w t)) :
    s.KeepsLinks (s.onTableRequest kind fun p c t => t.examineRequest kind p c (act p c)) := by
  refine s.onTableRequest_keepsLinks kind _ fun p c t => ?_
  unfold State.examineRequest
  dsimp only
  split_ifs
  · exact (t.refuse_loosens _ _ _ _).keepsLinks
  · exact (t.refuse_loosens _ _ _ _).keepsLinks
  · split
    · exact (t.refuse_loosens _ _ _ _).keepsLinks
    · rename_i hw
      exact h t p c _ hw
  · exact (t.refuse_loosens _ _ _ _).keepsLinks

/-- The body that a long operation gives its window: its outstanding set is filled (R15, R80). -/
def WindowBody.started (b : WindowBody) (s : State) (g : Generation) : WindowBody :=
  { b with shootSet := s.onlinePorts, setGeneration := if s.onlinePorts = [] then none else some g }

section
variable (s : State) (w : WindowId) (b : WindowBody)

theorem State.startOperation_records : (s.startOperation w b).table.records =
    vput s.table.records w
      { generation := (s.record w).generation + 1, body := some (b.started s ((s.record w).generation + 1)) } :=
  congrArg Table.records (State.sendToPorts_frame _ _ _).2.2.2.2.2.1

theorem State.startOperation_monitor : (s.startOperation w b).monitor = s.monitor :=
  (State.sendToPorts_frame _ _ _).2.2.2.2.2.2.2.1

theorem WindowBody.started_liveEpoch (g : Generation) : liveEpoch (some (b.started s g)) = liveEpoch (some b) := rfl

variable {s w b}

/-- A long operation started with a break, and evaluated at once (R59, R67, R71). -/
theorem State.startOperation_break_keepsLinks (fits : OperationsFit (s.record w).body → b.OperationFits)
    {e : Option Epoch} (he : e = liveEpoch (some b)) :
    s.KeepsLinks (((s.startOperation w b).breakAndLink w e).evaluate w) := by
  subst he
  refine .trans ?_ (State.evaluate_keepsLinks _ w)
  exact State.KeepsLinks.of_break (s.startOperation_records w b) (s.startOperation_monitor w b) fun h => .some (fits h)

end

/-- A window freed with a break (R66, R69). -/
theorem State.freed_keepsLinks (s : State) (w : WindowId) :
    s.KeepsLinks ((s.changeWindow w none).breakAndLink w none) :=
  State.KeepsLinks.of_break (s := s) (t := s.changeWindow w none) rfl rfl fun _ => .free

/-- A window that is not LIVE changed once, with its link epoch set, and DONE posted (R54, R56 to R58, R65). -/
theorem State.changeWindow_link_keepsLinks {s : State} {w : WindowId} {b : WindowBody} {e : Option Epoch}
    (not_live : liveEpoch (s.record w).body = none) (fits : OperationsFit (s.record w).body → b.OperationFits)
    (he : e = liveEpoch (some b)) : s.KeepsLinks ((s.changeWindow w (some b)).setLinkEpoch w e) := by
  subst he
  exact State.KeepsLinks.of_link (w := w) rfl rfl not_live fun h => .some (fits h)

/-! ### The window requests (Section 3) -/

theorem execDefine_keepsLinks {s t : State} (h : execDefine s = .next t) : s.KeepsLinks t := by
  cases h
  refine s.windowRequest_keepsLinks .define (fun p c w u => u.takeDefine p c w) fun t p c w hw => ?_
  have free : (t.record w).body = none := by
    rcases hb : (t.record w).body with _ | b
    · rfl
    · simpa using WindowRecord.condition_phase hw hb
  unfold State.takeDefine
  split
  · exact (t.refuse_loosens _ _ _ _).keepsLinks
  · refine .trans ?_ (State.postDone_loosens _ _ _ _).keepsLinks
    exact State.changeWindow_link_keepsLinks (by rw [free]; rfl) (fun _ => .of_staged rfl rfl) rfl

theorem execAmend_keepsLinks {s t : State} (h : execAmend s = .next t) : s.KeepsLinks t := by
  cases h
  refine s.windowRequest_keepsLinks .amend (fun p c w u => u.takeAmend p c w) fun t p c w hw => ?_
  unfold State.takeAmend
  dsimp only
  split
  · rename_i b _ hb
    have not_live : b.phase ≠ .live := fun hp => by simpa [hp] using WindowRecord.condition_phase hw hb
    split
    · exact (t.refuse_loosens _ _ _ _).keepsLinks
    · refine .trans ?_ (State.postDone_loosens _ _ _ _).keepsLinks
      refine State.changeWindow_link_keepsLinks ?_ (fun fits => fits b hb) (liveEpoch_not_live not_live).symm
      rw [hb]
      exact liveEpoch_not_live not_live
  · exact (t.refuse_loosens _ _ _ _).keepsLinks

theorem execEnable_keepsLinks {s t : State} (h : execEnable s = .next t) : s.KeepsLinks t := by
  cases h
  refine s.windowRequest_keepsLinks .enable (fun p c w u => u.takeEnable p c w) fun t p c w hw => ?_
  unfold State.takeEnable
  split
  · exact .refl t
  · rename_i b hb
    have staged : b.phase = .staged := by simpa using WindowRecord.condition_phase hw hb
    split
    · refine .trans ?_ (State.postDone_loosens _ _ _ _).keepsLinks
      refine State.changeWindow_link_keepsLinks ?_ (fun fits => ?_) rfl
      · rw [hb]
        exact liveEpoch_not_live (by simp [staged])
      · exact .of_live rfl ((fits b hb).staged staged)
    · exact (t.refuse_loosens _ _ _ _).keepsLinks

theorem execHold_keepsLinks {s t : State} (h : execHold s = .next t) : s.KeepsLinks t := by
  cases h
  refine s.windowRequest_keepsLinks .hold (fun p c w u => u.takeHold p c w) fun t p c w _ => ?_
  unfold State.takeHold
  split
  · exact .refl t
  · exact State.startOperation_break_keepsLinks (fun _ => .of_hold rfl rfl) rfl

theorem execRelease_keepsLinks {s t : State} (h : execRelease s = .next t) : s.KeepsLinks t := by
  cases h
  refine s.windowRequest_keepsLinks .release (fun p c w u => u.takeReleaseRequest p c w) fun t p c w hw => ?_
  unfold State.takeReleaseRequest
  split
  · exact .refl t
  · rename_i b hb
    have held : b.phase = .held := by simpa using WindowRecord.condition_phase hw hb
    split
    · exact (t.refuse_loosens _ _ _ _).keepsLinks
    · refine .trans ?_ (((State.sendToPorts_loosens _ _ _).trans (State.postDone_loosens _ w p c)).trans
        (State.postCancelled_loosens _ _ _)).keepsLinks
      refine State.changeWindow_link_keepsLinks ?_ (fun _ => .of_live rfl rfl) rfl
      rw [hb]
      exact liveEpoch_not_live (by simp [held])

theorem execRetire_keepsLinks {s t : State} (h : execRetire s = .next t) : s.KeepsLinks t := by
  cases h
  refine s.windowRequest_keepsLinks .retire (fun p c w u => u.takeRetireRequest p c w) fun t p c w _ => ?_
  unfold State.takeRetireRequest
  split
  · exact .refl t
  · split
    · exact State.startOperation_break_keepsLinks (fun _ => .of_retire rfl rfl) rfl
    · exact (t.freed_keepsLinks w).trans
        ((State.sendToPorts_loosens _ _ _).trans (State.postDone_loosens _ w p c)).keepsLinks
    · exact (t.freed_keepsLinks w).trans (State.postDone_loosens _ w p c).keepsLinks

/-- Rights of which none falls: no port loses its right (R9, R72). -/
theorem right_of_not_narrows {old new : Rights} (h : narrows old new = false) {p : PortId}
    (hp : old.get p ≠ .noRight) : new.get p ≠ .noRight := by
  intro hn
  have := List.any_eq_false.1 h p (mem_allPorts p)
  rcases ho : old.get p <;> simp [hn, ho, Right.rank] at this hp

/-- A long operation started without a break, on a window that stays LIVE (R72). -/
theorem State.startOperation_widening_keepsLinks {s : State} {w : WindowId} {b b' : WindowBody} {q : PortId}
    {n : RequestNumber} (hb : (s.record w).body = some b) (hn : narrows b.rights b'.rights = false)
    (live : b.phase = .live) (he : b' = { b with rights := b'.rights, pendingOp := some (.revise q n false) }) :
    s.KeepsLinks ((s.startOperation w b').evaluate w) := by
  have phase : b'.phase = .live := by rw [he]; exact live
  have op : b'.pendingOp = some (.revise q n false) := by rw [he]
  have epoch : b'.epoch = b.epoch := by rw [he]
  refine .trans ?_ (State.evaluate_keepsLinks _ w)
  refine .of_record (s.startOperation_records w b') (s.startOperation_monitor w b') fun _ =>
    ⟨.some (.of_revise phase op), ?_, ?_⟩
  · rw [hb, WindowBody.started_liveEpoch, liveEpoch_live phase, liveEpoch_live live, epoch]
  · rintro _ ⟨⟩ -
    exact ⟨b, hb, fun p => right_of_not_narrows hn⟩

theorem execSetRights_keepsLinks {s t : State} (h : execSetRights s = .next t) : s.KeepsLinks t := by
  cases h
  refine s.windowRequest_keepsLinks .setRights (fun p c w u => u.takeSetRights p c w) fun t p c w hw => ?_
  unfold State.takeSetRights
  dsimp only
  split
  · rename_i r b _ hb
    have live : b.phase = .live := by simpa using WindowRecord.condition_phase hw hb
    split
    · exact (t.refuse_loosens _ _ _ _).keepsLinks
    · rcases hn : narrows b.rights r with _ | _
      · simp only [Bool.false_eq_true, if_false]
        exact State.startOperation_widening_keepsLinks hb hn live rfl
      · simp only [if_true]
        refine State.startOperation_break_keepsLinks (fun _ => ?_) ?_
        · exact .of_revise live rfl
        · simp [liveEpoch, live]
  · exact (t.refuse_loosens _ _ _ _).keepsLinks

theorem execQueryWindow_keepsLinks {s t : State} (h : execQueryWindow s = .next t) : s.KeepsLinks t := by
  cases h
  refine s.onTableRequest_keepsLinks _ _ fun p c t => State.Loosens.keepsLinks ?_
  unfold State.takeQueryWindow
  dsimp only
  split_ifs
  · exact t.refuse_loosens _ _ _ _
  · exact .of_same (by simp) (by simp)
  · exact t.refuse_loosens _ _ _ _
  · exact t.refuse_loosens _ _ _ _

end Sys2Proof.Machine
end

section
/-! Every command, and a tick of the timebase, keeps the law of R147; the ending of a linked read, which alone sets a
reservation, keeps it where the port of the linked read has a right. -/

namespace Sys2Proof.Machine

/-! ### The ending of a linked read (R137) -/

/-- The report of the linked read r on the bus reaches the reservation monitor; what comes before and after it in the
event only drops reservations (R112, R137). -/
structure State.ReportsLinkedRead (s t : State) (r : BusAccess) : Prop where
  access : s.engine.access = some r
  kind : r.kind = .linkedRead
  event : ∃ u, s.Loosens u ∧ (u.reportLinkedRead r.origin r.sysAddr r.window r.epoch).Loosens t

section
variable (s : State) (p : PortId) (a : SysAddr) (w : WindowId) (e : Epoch)

/-- A reservation is one kept, or the one just set, whose window's link epoch is the epoch reported. -/
theorem State.reportLinkedRead_reservation {q : PortId} {r : Reservation}
    (h : (s.reportLinkedRead p a w e).reservation q = some r) :
    s.reservation q = some r ∨ (q = p ∧ r.window = w ∧ s.monitor.linkEpoch.get w = some e) := by
  unfold State.reportLinkedRead at h
  split at h
  · rename_i hset
    obtain ⟨-, link⟩ : s.monitor.permission.get p = true ∧ s.monitor.linkEpoch.get w = some e := by simpa using hset
    rw [State.setReservation_reservation_at] at h
    split at h
    · rename_i hq
      cases h
      exact .inr ⟨hq, rfl, link⟩
    · exact .inl h
  · exact .inl h

theorem State.reportLinkedRead_linksFollowWindows (hs : s.LinksFollowWindows) :
    (s.reportLinkedRead p a w e).LinksFollowWindows := by
  rw [State.linksFollowWindows_iff] at hs ⊢
  obtain ⟨fits, link, named⟩ := hs
  have record : ∀ v, (s.reportLinkedRead p a w e).record v = s.record v := State.record_congr (by simp)
  have linkEpoch : (s.reportLinkedRead p a w e).monitor.linkEpoch = s.monitor.linkEpoch := by simp
  simp only [record, linkEpoch]
  refine ⟨fits, link, fun q r hr => ?_⟩
  rcases s.reportLinkedRead_reservation p a w e hr with kept | ⟨-, rfl, set⟩
  · exact named q r kept
  · simp [set]

theorem State.reportLinkedRead_reservationsHaveRights (hs : s.ReservationsHaveRights)
    (right : s.monitor.linkEpoch.get w = some e → ∃ b, (s.record w).body = some b ∧ b.rights.get p ≠ .noRight) :
    (s.reportLinkedRead p a w e).ReservationsHaveRights := by
  intro q r hr
  rw [State.record_congr (by simp : (s.reportLinkedRead p a w e).table.records = s.table.records)]
  rcases s.reportLinkedRead_reservation p a w e hr with kept | ⟨rfl, rfl, set⟩
  · exact hs q r kept
  · exact right set

end

section
variable {s t : State} {r : BusAccess} (h : s.ReportsLinkedRead t r)
include h

theorem State.ReportsLinkedRead.linksFollowWindows (hs : s.LinksFollowWindows) : t.LinksFollowWindows := by
  obtain ⟨u, before, after⟩ := h.event
  obtain ⟨hu, -⟩ := before.keepsLinks hs
  exact (after.keepsLinks (u.reportLinkedRead_linksFollowWindows _ _ _ _ hu)).1

/-- The reservation set names a window in which the port of the linked read has a right. -/
theorem State.ReportsLinkedRead.reservationsHaveRights (hs : s.LinksFollowWindows) (right : s.LinkedReadHasRight)
    (rights : s.ReservationsHaveRights) : t.ReservationsHaveRights := by
  obtain ⟨u, before, after⟩ := h.event
  obtain ⟨hu, first⟩ := before.keepsLinks hs
  obtain ⟨-, second⟩ := after.keepsLinks (u.reportLinkedRead_linksFollowWindows _ _ _ _ hu)
  refine second (u.reportLinkedRead_reservationsHaveRights _ _ _ _ (first rights) fun set => ?_)
  rw [State.record_congr before.records]
  exact right r h.access h.kind (before.linkEpoch ▸ set)

end

/-! ### The events of the bus -/

/-- The success of an access only drops reservations, or reports a linked read (R112, R127). -/
theorem State.completeAccess_loosens_or_reports (s : State) (r : BusAccess) :
    s.Loosens (s.completeAccess r) ∨ (r.kind = .linkedRead ∧
      (s.reportLinkedRead r.origin r.sysAddr r.window r.epoch).Loosens (s.completeAccess r)) := by
  unfold State.completeAccess
  split
  · exact .inl (s.finishEntry_loosens r)
  · split
    · exact .inl (s.finishAccess_choose_loosens r _ _)
    · by_cases hk : r.kind = .linkedRead
      · simp only [hk, beq_self_eq_true, if_true, true_and]
        exact .inr (State.finishAccess_choose_loosens _ r _ _)
      · simp only [beq_iff_eq, hk, if_false]
        exact .inl (s.finishAccess_choose_loosens r _ _)

/-- The part in progress belongs to the bus access record. -/
theorem State.terminated_access {s : State} {n : Nat} {r : BusAccess} {part : BusPart}
    (h : s.terminated n = some (r, part)) : s.engine.access = some r := by
  unfold State.terminated State.partInProgress at h
  split at h
  · split at h
    · rename_i hr _
      cases h
      exact hr
    · cases h
  · cases h

theorem State.endPart_loosens (s : State) : s.Loosens (s.modifyEngine Engine.endPart) := .of_same rfl rfl

theorem execPartAck_loosens_or_reports {lanes : Word} {n : Nat} {s t : State} (h : execPartAck lanes s n = .next t) :
    s.Loosens t ∨ ∃ r, s.ReportsLinkedRead t r := by
  cases h
  split
  · exact .inl (.refl s)
  · rename_i r part hr
    have ended := s.endPart_loosens.trans (State.reportPart_loosens _ part)
    dsimp only
    split
    · exact .inl (ended.trans (State.endAbandoned_loosens _ r))
    · unfold State.partCompleted
      have kept : ∀ (u : State) x, u.Loosens (u.keepAccess x) := fun _ _ => .of_same rfl rfl
      split
      · exact .inl ((ended.trans (kept _ _)).trans (State.startPart_loosens _))
      · have upTo := ended.trans (kept _ (r.advance part lanes))
        exact (State.completeAccess_loosens_or_reports _ _).imp upTo.trans
          fun ⟨linked, after⟩ => ⟨r, State.terminated_access hr, linked, _, upTo, after⟩

theorem execPartErr_loosens {n : Nat} {s t : State} (h : execPartErr s n = .next t) : s.Loosens t := by
  cases h
  split
  · exact .refl s
  · refine s.endPart_loosens.trans ?_
    split
    · exact State.endAbandoned_loosens _ _
    · exact State.failAccess_loosens _ _ _

theorem execPartRty_loosens {n : Nat} {s t : State} (h : execPartRty s n = .next t) : s.Loosens t := by
  cases h
  split
  · exact .refl s
  · refine s.endPart_loosens.trans ?_
    split
    · exact State.endAbandoned_loosens _ _
    · exact State.retryPart_loosens _ _

theorem execResponseTimerExpiry_loosens {s t : State} (h : execResponseTimerExpiry s = .next t) : s.Loosens t := by
  cases h
  split
  · exact .refl s
  · refine s.endPart_loosens.trans ?_
    split
    · exact State.endAbandoned_loosens _ _
    · exact State.failAccess_loosens _ _ _

theorem execRetryWaitExpiry_loosens {s t : State} (h : execRetryWaitExpiry s = .next t) : s.Loosens t := by
  cases h
  split
  · exact .choose rfl rfl
  · exact .refl s

theorem execExternalRequest_loosens {s t : State} (h : execExternalRequest s = .next t) : s.Loosens t := by
  cases h
  split
  · exact .refl s
  · exact .choose rfl rfl

theorem execExternalWithdraw_loosens {s t : State} (h : execExternalWithdraw s = .next t) : s.Loosens t := by
  cases h
  split
  · exact .choose rfl rfl
  · exact .of_same rfl rfl

theorem execExternalWriteAck_loosens {a : SysAddr} {z : AccessSize} {s t : State}
    (h : execExternalWriteAck a z s = .next t) : s.Loosens t := by
  cases h
  split
  · exact s.keepReservations_loosens _
  · exact .refl s

theorem execEntryFinishedReport_loosens {p : PortId} {s t : State} (h : execEntryFinishedReport p s = .next t) :
    s.Loosens t := by
  cases h
  split
  · exact .refl s
  · exact .of_same (by simp) (by simp)

/-! ### What the ports take from the table -/

section
variable {p : PortId} {s t : State}

theorem execAdmitAnswer_loosens (h : execAdmitAnswer p s = .next t) : s.Loosens t := by
  cases h
  split
  · exact .before (State.takeAdmitted_loosens _ p _) rfl rfl
  · exact .refl s

theorem execDenyAnswer_loosens (h : execDenyAnswer p s = .next t) : s.Loosens t := by
  cases h
  split
  · exact .before (State.takeDenied_loosens _ p _ _) rfl rfl
  · exact .refl s

theorem execNoneAnswer_loosens (h : execNoneAnswer p s = .next t) : s.Loosens t := by
  cases h
  split
  · exact .before (State.takeNoWindow_loosens _ p) rfl rfl
  · exact .refl s

theorem execParkAnswer_loosens (h : execParkAnswer p s = .next t) : s.Loosens t := by
  cases h
  split
  · exact .before (State.takePark_loosens _ p _) rfl rfl
  · exact .refl s

theorem execShootDown_loosens (h : execShootDown p s = .next t) : s.Loosens t := by
  cases h
  split
  · exact .before (State.sendToTable_loosens _ p _) rfl rfl
  · exact .refl s

theorem execReleaseNotice_loosens (h : execReleaseNotice p s = .next t) : s.Loosens t := by
  cases h
  split
  · exact .before (State.takeRelease_loosens _ p _) rfl rfl
  · exact .refl s

theorem execRetireNotice_loosens (h : execRetireNotice p s = .next t) : s.Loosens t := by
  cases h
  split
  · exact .before (State.takeRetire_loosens _ p _) rfl rfl
  · exact .refl s

theorem execParkTimerExpiry_loosens (h : execParkTimerExpiry p s = .next t) : s.Loosens t := by
  cases h
  split
  · exact .of_same (by simp) (by simp)
  · exact .refl s

theorem execPortReset_loosens (h : execPortReset p s = .next t) : s.Loosens t := by
  cases h
  split
  · exact .refl s
  · exact .before (State.resetPort_loosens _ p) rfl rfl

end

/-! ### The device reset (R24, R134, R177) -/

theorem State.deviceReset_reservation (s : State) (st : Straps) (p : PortId) :
    (s.deviceReset st).reservation p = none := by
  simp [State.deviceReset, State.reservation, resetMonitor]

theorem State.deviceReset_linksFollowWindows (s : State) (st : Straps) : (s.deviceReset st).LinksFollowWindows := by
  have record := State.record_of_reset (t := s.deviceReset st) rfl
  have linkEpoch : ∀ w, (s.deviceReset st).monitor.linkEpoch.get w = if w = 0 then some 0 else none := fun w => by
    simp [State.deviceReset, resetMonitor]
  rw [State.linksFollowWindows_iff]
  refine ⟨fun w => ?_, fun w => ?_, fun p r hr => ?_⟩
  · rw [record]
    split
    · exact .some (.of_live rfl rfl)
    · exact .free
  · rw [record, linkEpoch]
    split <;> rfl
  · rw [State.deviceReset_reservation] at hr
    cases hr

theorem State.deviceReset_keepsLinks (s : State) (st : Straps) : s.KeepsLinks (s.deviceReset st) :=
  fun _ => ⟨s.deviceReset_linksFollowWindows st, fun _ p r hr => by
    rw [State.deviceReset_reservation] at hr
    cases hr⟩

theorem execDeviceReset_keepsLinks {st : Straps} {s t : State} (h : execDeviceReset st s = .next t) :
    s.KeepsLinks t := by
  rw [← Host.Outcome.next.inj h]
  have held := State.foldl_keepsLinks State.takeHeldReset (fun t p => (t.takeHeldReset_loosens p).keepsLinks) allPorts
    (s.deviceReset st)
  exact ((s.deviceReset_keepsLinks st).trans held).trans (State.choose_loosens _).keepsLinks

/-! ### Every command -/

/-- A command keeps the law, or it is the ACK that ends a linked read. -/
theorem exec_keepsLinks_or_reports {i : Instr} {s t : State} (h : exec i s = .next t) :
    s.KeepsLinks t ∨ ∃ r, s.ReportsLinkedRead t r := by
  have loosens : s.Loosens t → s.KeepsLinks t ∨ ∃ r, s.ReportsLinkedRead t r := fun k => .inl k.keepsLinks
  cases i with
  | accessArrival p a => cases h; exact loosens (s.presentAccess_loosens _ _)
  | registerWrite p word value => cases h; exact loosens (s.presentAccess_loosens _ _)
  | acknowledge p => cases h; exact loosens (s.presentAccess_loosens _ _)
  | walk => exact .inl (execWalk_keepsLinks h)
  | admitAnswer p => exact loosens (execAdmitAnswer_loosens h)
  | denyAnswer p => exact loosens (execDenyAnswer_loosens h)
  | noneAnswer p => exact loosens (execNoneAnswer_loosens h)
  | parkAnswer p => exact loosens (execParkAnswer_loosens h)
  | addition p => exact .inl (execAddition_keepsLinks h)
  | subtraction sender => exact .inl (execSubtraction_keepsLinks h)
  | acknowledgement p => exact .inl (execAcknowledgement_keepsLinks h)
  | offlineNotice p => exact .inl (execOfflineNotice_keepsLinks h)
  | onlineNotice p => exact .inl (execOnlineNotice_keepsLinks h)
  | shootDown p => exact loosens (execShootDown_loosens h)
  | releaseNotice p => exact loosens (execReleaseNotice_loosens h)
  | retireNotice p => exact loosens (execRetireNotice_loosens h)
  | parkTimerExpiry p => exact loosens (execParkTimerExpiry_loosens h)
  | define => exact .inl (execDefine_keepsLinks h)
  | amend => exact .inl (execAmend_keepsLinks h)
  | enable => exact .inl (execEnable_keepsLinks h)
  | hold => exact .inl (execHold_keepsLinks h)
  | release => exact .inl (execRelease_keepsLinks h)
  | retire => exact .inl (execRetire_keepsLinks h)
  | setRights => exact .inl (execSetRights_keepsLinks h)
  | queryWindow => exact .inl (execQueryWindow_keepsLinks h)
  | portOnline i => cases h; exact loosens (s.onPortRequest_loosens _ i _ fun q c t => t.takeOnline_loosens i q c)
  | portOffline i => cases h; exact loosens (s.onPortRequest_loosens _ i _ fun q c t => t.takeOffline_loosens i q c)
  | fence i => cases h; exact loosens (s.onPortRequest_loosens _ i _ fun q c t => t.takeFence_loosens i q c)
  | unfence i => cases h; exact loosens (s.onPortRequest_loosens _ i _ fun q c t => t.takeUnfence_loosens i q c)
  | clearFault i => cases h; exact loosens (s.onPortRequest_loosens _ i _ fun q c t => t.takeClearFault_loosens i q c)
  | queryPort i => cases h; exact loosens (s.onPortRequest_loosens _ i _ fun q c t => t.takeQueryPort_loosens i q c)
  | setParam i => cases h; exact loosens (s.onRequest_loosens _ i _ fun c t => t.takeSetParam_loosens i c)
  | clearDeviceFault i =>
    cases h
    exact loosens (s.onRequest_loosens _ i _ fun c t => t.takeClearDeviceFault_loosens i c)
  | queryDevice i => cases h; exact loosens (s.onRequest_loosens _ i _ fun c t => t.takeQueryDevice_loosens i c)
  | resultTaken p number result => cases h; exact loosens (.of_same (by simp) (by simp))
  | partAck lanes number => exact (execPartAck_loosens_or_reports h).imp_left State.Loosens.keepsLinks
  | partErr number => exact loosens (execPartErr_loosens h)
  | partRty number => exact loosens (execPartRty_loosens h)
  | responseTimerExpiry => exact loosens (execResponseTimerExpiry_loosens h)
  | retryWaitExpiry => exact loosens (execRetryWaitExpiry_loosens h)
  | externalRequest => exact loosens (execExternalRequest_loosens h)
  | externalWithdraw => exact loosens (execExternalWithdraw_loosens h)
  | externalWriteAck addr size => exact loosens (execExternalWriteAck_loosens (z := size) h)
  | entryFinishedReport p => exact loosens (execEntryFinishedReport_loosens h)
  | portReset p => exact loosens (execPortReset_loosens h)
  | deviceReset straps => exact .inl (execDeviceReset_keepsLinks h)
  | portResetRelease p => cases h; exact loosens (.of_same rfl rfl)

theorem step_keepsLinks_or_reports {s t : State} (h : step s = .next t) :
    s.KeepsLinks t ∨ ∃ r, s.ReportsLinkedRead t r := by
  unfold step at h
  split at h
  · cases h
    exact .inl (State.Loosens.of_same rfl rfl).keepsLinks
  · rename_i rest _
    have popped : s.Loosens { s with pending := rest } := .of_same rfl rfl
    exact (exec_keepsLinks_or_reports h).imp popped.keepsLinks.trans fun ⟨r, access, kind, u, before, after⟩ =>
      ⟨r, access, kind, u, popped.trans before, after⟩

/-- Settles O54: a step keeps the law by itself (`State.KeepsLinks`), or it is the ACK that ends a linked read, and the
reservation then set names a LIVE window, by its link epoch, and one that grants the port a right, by the premise. -/
theorem reservationsKeepToLiveWindows : Obligations.ReservationsKeepToLiveWindows := by
  refine ⟨fun s t hs h => ?_, fun s t hs right rights h => ?_⟩
  · rcases step_keepsLinks_or_reports h with keeps | ⟨r, reports⟩
    · exact (keeps hs).1
    · exact reports.linksFollowWindows hs
  · rcases step_keepsLinks_or_reports h with keeps | ⟨r, reports⟩
    · exact (keeps hs).2 rights
    · exact reports.reservationsHaveRights hs right rights

end Sys2Proof.Machine
end

section
/-! The output lines (R163, R180): FAULT, ALERT and DONE through the port units, the arbiter, the store and the ending
of an access. Only the operations on fault records and on a slot's state reach a line, and each sets it with its
record. -/

namespace Sys2Proof.Machine

/-! ### One unit and the configuration unit -/

/-- DONE follows the slot's state (R180). -/
def Slot.LineFollows (sl : Slot) : Prop := sl.doneLine = true ↔ sl.state = .complete

/-- FAULT follows the unit's fault record, and DONE its slot (R163, R180). -/
def PortUnit.LinesFollow (u : PortUnit) : Prop := (u.faultLine = true ↔ u.fault ≠ none) ∧ u.slot.LineFollows

/-- ALERT follows the device fault record (R163). -/
def ConfigUnit.LineFollows (g : ConfigUnit) : Prop := g.alertLine = true ↔ g.fault ≠ none

theorem State.linesFollowRecords_iff (s : State) :
    s.LinesFollowRecords ↔ (∀ p, (s.port p).LinesFollow) ∧ s.config.LineFollows := Iff.rfl

theorem Slot.emptied_lineFollows (sl : Slot) : sl.emptied.LineFollows := by simp [Slot.LineFollows, Slot.emptied]

theorem Slot.LineFollows.given {sl : Slot} (h : sl.LineFollows) (n : RequestNumber) (r : Result) :
    (sl.given n r).LineFollows := by
  unfold Slot.given
  split
  · exact iff_of_true rfl rfl
  · exact h

/-- A slot that captures is IDLE, so DONE is released already (R179, R180). -/
theorem Slot.LineFollows.capturing {sl : Slot} (h : sl.LineFollows) (idle : sl.state = .idle) :
    sl.capturing.LineFollows := by
  simp_all [Slot.LineFollows, Slot.capturing]

theorem Slot.LineFollows.acknowledged {sl : Slot} (h : sl.LineFollows) : sl.acknowledged.LineFollows := by
  unfold Slot.acknowledged
  split
  · simp [Slot.LineFollows]
  · exact h

theorem Slot.LineFollows.writePlain {sl : Slot} (h : sl.LineFollows) (w : PlainWord) (v : Word) :
    (sl.writePlain w v).LineFollows := by
  cases w <;> exact h

theorem PortUnit.emptyFault_linesFollow {u : PortUnit} (h : u.slot.LineFollows) : u.emptyFault.LinesFollow :=
  ⟨by simp [PortUnit.emptyFault], h⟩

theorem PortUnit.LinesFollow.offered {u : PortUnit} (h : u.LinesFollow) (f : FaultInfo) :
    (u.offered f).LinesFollow := by
  unfold PortUnit.offered
  split_ifs
  · exact ⟨by simp, h.2⟩
  · exact h
  · exact h

theorem PortUnit.LinesFollow.answeredWith {u : PortUnit} (h : u.LinesFollow) (a : Answer) (f : Option FaultInfo) :
    (u.answeredWith a f).LinesFollow := by
  have answered : (u.answered a).LinesFollow := h
  cases f with
  | none => exact answered
  | some f => exact answered.offered f

theorem Units.given_linesFollow {u : Units} (h : ∀ p, (u p).LinesFollow) (p : PortId) (n : RequestNumber) (r : Result)
    (q : PortId) : (u.given p n r q).LinesFollow := by
  unfold Units.given Units.put
  split
  · exact ⟨(h p).1, (h p).2.given n r⟩
  · exact h q

theorem Units.evaluated_linesFollow {u : Units} (h : ∀ p, (u p).LinesFollow) (g : Generation) (b : WindowBody)
    (q : PortId) : (u.evaluated g b q).LinesFollow := by
  unfold Units.evaluated
  split_ifs
  · rcases b.pendingOp with _ | op
    · exact h q
    · exact Units.given_linesFollow h _ _ _ q
  · rcases b.pendingOp with _ | op <;> exact h q

/-! ### Changes of one unit, results and fault records -/

section
variable {s : State} (h : s.LinesFollowRecords)
include h

theorem State.LinesFollowRecords.of_frame {t : State} (hp : t.ports = s.ports) (hc : t.config = s.config) :
    t.LinesFollowRecords := by
  unfold State.LinesFollowRecords State.port at *
  rw [hp, hc]
  exact h

theorem State.LinesFollowRecords.modifyPort (p : PortId) (f : PortUnit → PortUnit)
    (hf : (s.port p).LinesFollow → (f (s.port p)).LinesFollow) : (s.modifyPort p f).LinesFollowRecords := by
  obtain ⟨units, config⟩ := s.linesFollowRecords_iff.1 h
  refine (State.linesFollowRecords_iff _).2 ⟨fun q => ?_, config⟩
  rw [State.modifyPort_port_at]
  split
  · exact hf (units p)
  · exact units q

theorem State.LinesFollowRecords.setCurrent (p : PortId) (c : CurrentAccess) : (s.setCurrent p c).LinesFollowRecords :=
  h.modifyPort p _ id

theorem State.LinesFollowRecords.setLookaside (p : PortId) (l : Lookaside) : (s.setLookaside p l).LinesFollowRecords :=
  h.modifyPort p _ id

theorem State.LinesFollowRecords.setStaleWalk (p : PortId) (b : Bool) : (s.setStaleWalk p b).LinesFollowRecords :=
  h.modifyPort p _ id

theorem State.LinesFollowRecords.setResetInput (p : PortId) (b : Bool) : (s.setResetInput p b).LinesFollowRecords :=
  h.modifyPort p _ id

theorem State.LinesFollowRecords.answer (p : PortId) (a : Answer) : (s.answer p a).LinesFollowRecords :=
  h.modifyPort p _ id

theorem State.LinesFollowRecords.modifySlot (p : PortId) (f : Slot → Slot)
    (hf : (s.port p).slot.LineFollows → (f (s.port p).slot).LineFollows) : (s.modifySlot p f).LinesFollowRecords :=
  h.modifyPort p _ fun ⟨fault, slot⟩ => ⟨fault, hf slot⟩

theorem State.LinesFollowRecords.postResult (p : PortId) (n : RequestNumber) (r : Result) :
    (s.postResult p n r).LinesFollowRecords := by
  obtain ⟨units, config⟩ := s.linesFollowRecords_iff.1 h
  refine (State.linesFollowRecords_iff _).2 ⟨fun q => ?_, ?_⟩
  · rw [State.postResult_port]
    exact Units.given_linesFollow units p n r q
  · simpa using config

theorem State.LinesFollowRecords.requestTaken (p : PortId) : (s.requestTaken p).LinesFollowRecords :=
  (h.modifyPort p (fun u => { u with staleRequest := false, slot := { u.slot with held := none } }) id).of_frame rfl rfl

theorem State.LinesFollowRecords.clearSlot (p : PortId) : (s.clearSlot p).LinesFollowRecords :=
  h.modifyPort p _ fun ⟨fault, _⟩ => ⟨fault, Slot.emptied_lineFollows _⟩

theorem State.LinesFollowRecords.offerFault (p : PortId) (f : FaultInfo) : (s.offerFault p f).LinesFollowRecords :=
  h.modifyPort p _ fun k => by
    rw [PortUnit.offerFault_eq]
    exact k.offered f

theorem State.LinesFollowRecords.offerDeviceFault (f : FaultInfo) (p : PortId) :
    (s.offerDeviceFault f p).LinesFollowRecords := by
  unfold State.offerDeviceFault
  split
  · exact ⟨h.1, iff_of_true rfl (Option.some_ne_none _)⟩
  · exact h

theorem State.LinesFollowRecords.routeDeferred (e : StoreEntry) (f : FaultInfo) :
    (s.routeDeferred e f).LinesFollowRecords := by
  unfold State.routeDeferred
  split
  · exact h.offerFault _ f
  · exact h.offerDeviceFault f _

/-! ### What reaches no port and not the configuration unit -/

theorem State.LinesFollowRecords.modifyEngine (f : Engine → Engine) : (s.modifyEngine f).LinesFollowRecords := h

theorem State.LinesFollowRecords.engineSubtract (w : WindowId) (e : Epoch) :
    (s.engineSubtract w e).LinesFollowRecords := h

theorem State.LinesFollowRecords.setToPort (p : PortId) (l : List TableMessage) :
    (s.setToPort p l).LinesFollowRecords := h

theorem State.LinesFollowRecords.setReservation (p : PortId) (r : Option Reservation) :
    (s.setReservation p r).LinesFollowRecords := h

theorem State.LinesFollowRecords.setPermission (p : PortId) (b : Bool) : (s.setPermission p b).LinesFollowRecords := h

theorem State.LinesFollowRecords.setLinkEpoch (w : WindowId) (e : Option Epoch) :
    (s.setLinkEpoch w e).LinesFollowRecords := h

theorem State.LinesFollowRecords.breakAndLink (w : WindowId) (e : Option Epoch) :
    (s.breakAndLink w e).LinesFollowRecords := h

theorem State.LinesFollowRecords.setBody (w : WindowId) (b : Option WindowBody) : (s.setBody w b).LinesFollowRecords :=
  h

theorem State.LinesFollowRecords.modifyCount (w : WindowId) (e : Epoch) (f : Nat → Nat) :
    (s.modifyCount w e f).LinesFollowRecords := h

theorem State.LinesFollowRecords.setView (p : PortId) (b : Bool) : (s.setView p b).LinesFollowRecords := h

theorem State.LinesFollowRecords.changeWindow (w : WindowId) (b : Option WindowBody) :
    (s.changeWindow w b).LinesFollowRecords := h

theorem State.LinesFollowRecords.sendToTable (p : PortId) (m : PortMessage) : (s.sendToTable p m).LinesFollowRecords :=
  h.of_frame (by simp) (by simp)

theorem State.LinesFollowRecords.takeFromPort (p : PortId) (l : List PortMessage) :
    (s.takeFromPort p l).LinesFollowRecords :=
  h.of_frame (by simp) (by simp)

theorem State.LinesFollowRecords.sendToPorts (ps : List PortId) (m : TableMessage) :
    (s.sendToPorts ps m).LinesFollowRecords :=
  h.of_frame (by simp) (by simp)

theorem State.LinesFollowRecords.dropForLinkedRead (p : PortId) (a : AccessHead) :
    (s.dropForLinkedRead p a).LinesFollowRecords :=
  h.of_frame (by simp) (by simp)

/-! ### Port units -/

theorem State.LinesFollowRecords.postOffline (p : PortId) : (s.postOffline p).LinesFollowRecords := by
  have absent := h.modifyPort p (fun u => { u with offlineRequester := none }) id
  unfold State.postOffline
  dsimp only
  split
  · exact absent
  · exact absent.postResult _ _ _

theorem State.LinesFollowRecords.evaluateQuiesce (p : PortId) : (s.evaluateQuiesce p).LinesFollowRecords := by
  unfold State.evaluateQuiesce
  split
  · have offline := h.modifyPort p (fun u => { u with state := .offline, lookaside := emptyLookaside }) id
    exact ((offline.sendToTable p .offlineNotice).clearSlot p).postOffline p
  · exact h

theorem State.LinesFollowRecords.endCurrent (p : PortId) (a : Answer) (f : Option FaultInfo) :
    (s.endCurrent p a f).LinesFollowRecords := by
  rw [State.endCurrent_eq]
  exact (h.modifyPort p (fun u => u.answeredWith a f) fun k => k.answeredWith a f).evaluateQuiesce p

theorem State.LinesFollowRecords.failMatch (p : PortId) (a : AccessHead) (k : FaultKind) (w : Option WindowId) :
    (s.failMatch p a k w).LinesFollowRecords :=
  h.endCurrent p _ _

theorem State.LinesFollowRecords.startWalk (p : PortId) (a : Access) : (s.startWalk p a).LinesFollowRecords := by
  unfold State.startWalk
  split
  · exact h.setCurrent p _
  · exact (h.setCurrent p _).sendToTable p _

theorem State.LinesFollowRecords.discardAnswer (p : PortId) : (s.discardAnswer p).LinesFollowRecords := by
  unfold State.discardAnswer
  dsimp only
  split
  · exact ((h.setStaleWalk p false).setCurrent p _).sendToTable p _
  · exact h.setStaleWalk p false

/-! ### The arbiter and the store -/

theorem State.LinesFollowRecords.finishAccess (r : BusAccess) (a : Answer) (f : Option FaultInfo) :
    (s.finishAccess r a f).LinesFollowRecords :=
  h.endCurrent r.origin a f

/-- An access examined: its part starts, which reaches no line, or it finishes LINK_FAILED (R113, R139). -/
theorem State.LinesFollowRecords.examine (r : BusAccess) {start : State → State}
    (hp : ∀ t, (start t).ports = t.ports) (hc : ∀ t, (start t).config = t.config) :
    (s.examine r start).state.LinesFollowRecords := by
  rcases s.examine_cases r start with ⟨-, -, e⟩ | ⟨-, -, e⟩ | ⟨-, e⟩ <;> rw [e]
  · exact h.of_frame (hp _) (hc _)
  · exact h.finishAccess r _ none
  · exact h.of_frame (hp _) (hc _)

theorem State.LinesFollowRecords.grant (p : PortId) : (s.grant p).state.LinesFollowRecords := by
  have seized : ∀ r, (s.seizeBus p r).LinesFollowRecords := fun _ => h
  unfold State.grant
  split
  · exact (seized _).examine _ (fun _ => rfl) fun _ => rfl
  · split
    · exact (seized _).examine _ (fun _ => rfl) fun _ => rfl
    · exact ((seized _).setCurrent p _).examine _ (fun _ => rfl) fun _ => rfl
    · exact h

theorem State.LinesFollowRecords.choose : s.choose.LinesFollowRecords :=
  State.choose_induction (fun _ k => k) (fun _ p _ k => k.grant p) s h

theorem State.LinesFollowRecords.accept (p : PortId) (a : Access) (adm : Admission) :
    (s.accept p a adm).LinesFollowRecords := by
  rw [State.accept_eq]
  exact (h.modifyEngine _).modifyPort p
    (fun u => { u with current := .idle, answer := some (.done none), occupancyCopy := u.occupancyCopy + 1 }) id

theorem State.LinesFollowRecords.admitWaiter : s.admitWaiter.LinesFollowRecords := by
  unfold State.admitWaiter
  split
  · exact h
  · split
    · exact h
    · exact (h.modifyEngine _).accept _ _ _

theorem State.LinesFollowRecords.offer (p : PortId) (a : Access) (adm : Admission) :
    (s.offer p a adm).LinesFollowRecords := by
  unfold State.offer
  split
  · split
    · exact (h.accept p a adm).choose
    · exact h.setCurrent p _
  · exact (h.setCurrent p _).choose

theorem State.LinesFollowRecords.finishEntry (r : BusAccess) : (s.finishEntry r).LinesFollowRecords := by
  have removed : (s.modifyEngine fun g =>
      ({ g with store := removeOldest r.origin g.store } : Engine).dropAccess).LinesFollowRecords := h
  have reported : ∀ (u : State) (reports : Vector Nat 6), u.LinesFollowRecords →
      State.LinesFollowRecords { u with links := { u.links with reports := reports } } := fun _ _ k => k
  exact (reported _ _ (removed.choose.engineSubtract r.window r.epoch)).admitWaiter.choose

/-! ### The ending of a part (R106 to R114) -/

theorem State.LinesFollowRecords.endAbandoned (r : BusAccess) : (s.endAbandoned r).LinesFollowRecords :=
  ((h.engineSubtract r.window r.epoch).modifyEngine Engine.dropAccess).choose

theorem State.LinesFollowRecords.failAccess (r : BusAccess) (k : FaultKind) :
    (s.failAccess r k).LinesFollowRecords := by
  unfold State.failAccess
  split
  · split
    · exact h.finishEntry r
    · exact (h.routeDeferred _ _).finishEntry r
  · split <;> exact (h.finishAccess r _ _).choose

theorem State.LinesFollowRecords.completeAccess (r : BusAccess) : (s.completeAccess r).LinesFollowRecords := by
  unfold State.completeAccess
  split
  · exact h.finishEntry r
  · split
    · exact (h.finishAccess r _ _).choose
    · dsimp only
      split
      · have reported : (s.reportLinkedRead r.origin r.sysAddr r.window r.epoch).LinesFollowRecords :=
          h.of_frame (by simp) (by simp)
        exact (reported.finishAccess r _ _).choose
      · exact (h.finishAccess r _ _).choose

theorem State.LinesFollowRecords.partCompleted (r : BusAccess) : (s.partCompleted r).LinesFollowRecords := by
  have kept : (s.keepAccess r).LinesFollowRecords := h
  unfold State.partCompleted
  split
  · exact h
  · exact kept.completeAccess r

theorem State.LinesFollowRecords.retryPart (r : BusAccess) : (s.retryPart r).LinesFollowRecords := by
  unfold State.retryPart
  dsimp only
  split
  · exact (h.modifyEngine _).choose
  · exact h.failAccess _ _

/-- A part that ended reaches a line only by what its access then comes to (R106). -/
theorem State.LinesFollowRecords.endPart : (s.modifyEngine Engine.endPart).LinesFollowRecords := h

end

end Sys2Proof.Machine
end

section
/-! Every command, and a tick of the timebase, keeps FAULT, ALERT and DONE on their records (R163, R180). -/

namespace Sys2Proof.Machine

section
variable {s : State} (h : s.LinesFollowRecords)
include h

/-! ### Arrivals -/

theorem State.LinesFollowRecords.issue (p : PortId) : (s.issue p).LinesFollowRecords := by
  unfold State.issue State.sendRequest
  dsimp only
  split
  · rename_i idle
    have captured := h.modifySlot p Slot.capturing fun k => k.capturing (beq_iff_eq.1 idle)
    split
    · exact captured.postResult _ _ _
    · split
      · exact captured.modifySlot p _ id
      · exact captured
  · exact h.modifySlot p _ id

theorem State.LinesFollowRecords.writeSlot (p : PortId) (w : SlotWord) (v : Word) :
    (s.writeSlot p w v).LinesFollowRecords := by
  cases w with
  | plain w => exact h.modifySlot p _ fun k => k.writePlain w v
  | issue => exact h.issue p
  | acknowledge => exact h.modifySlot p _ fun k => k.acknowledged

theorem State.LinesFollowRecords.accessSlot (p : PortId) (a : Access) : (s.accessSlot p a).LinesFollowRecords := by
  unfold State.accessSlot
  split
  · exact h.answer p _
  · split
    · exact (h.writeSlot p _ _).answer p _
    · exact h.answer p _

theorem State.LinesFollowRecords.lookUp (p : PortId) (a : Access) : (s.lookUp p a).LinesFollowRecords := by
  unfold State.lookUp
  split
  · rename_i i c _
    have touched := h.setLookaside p ((s.port p).lookaside.touch i)
    unfold State.hitEntry
    dsimp only
    split
    · exact touched.failMatch p _ _ _
    · exact ((touched.setCurrent p _).dropForLinkedRead p _).sendToTable p _
  · exact h.startWalk p a

theorem State.LinesFollowRecords.checkArrival (p : PortId) (a : Access) : (s.checkArrival p a).LinesFollowRecords := by
  unfold State.checkArrival
  split_ifs
  · exact h.failMatch p _ _ _
  · exact h.answer p _
  · exact h.accessSlot p a
  · exact h.lookUp p a

theorem State.LinesFollowRecords.arrive (p : PortId) (a : Access) : (s.arrive p a).LinesFollowRecords := by
  have refused := h.answer p .error
  have slot := h.accessSlot p a
  unfold State.arrive
  split
  · exact refused
  · split
    · exact refused
    · split
      · exact slot
      · exact refused
    · split
      · exact slot
      · exact refused
    · exact h.checkArrival p a

theorem State.LinesFollowRecords.presentAccess (p : PortId) (a : Access) :
    (s.presentAccess p a).LinesFollowRecords := by
  unfold State.presentAccess
  split
  · exact (h.modifyPort p (fun u => { u with answer := none }) id).arrive p a
  · exact h

/-! ### What the ports take from the table -/

theorem State.LinesFollowRecords.takeAdmitted (p : PortId) (c : Copy) : (s.takeAdmitted p c).LinesFollowRecords := by
  unfold State.takeAdmitted
  split
  · exact (h.discardAnswer p).sendToTable p _
  · split
    · exact (((h.setLookaside p _).setCurrent p _).dropForLinkedRead p _).offer p _ _
    · exact h

theorem State.LinesFollowRecords.takeDenied (p : PortId) (c : Copy) (k : FaultKind) :
    (s.takeDenied p c k).LinesFollowRecords := by
  unfold State.takeDenied
  split
  · exact h.discardAnswer p
  · split
    · exact (h.setLookaside p _).failMatch p _ _ _
    · exact h

theorem State.LinesFollowRecords.takeNoWindow (p : PortId) : (s.takeNoWindow p).LinesFollowRecords := by
  unfold State.takeNoWindow
  split
  · exact h.discardAnswer p
  · split
    · exact h.failMatch p _ _ _
    · exact h

theorem State.LinesFollowRecords.takePark (p : PortId) (w : WindowId) : (s.takePark p w).LinesFollowRecords := by
  unfold State.takePark
  split
  · exact h.discardAnswer p
  · split
    · exact h.setCurrent p _
    · exact h

theorem State.LinesFollowRecords.takeRelease (p : PortId) (w : WindowId) : (s.takeRelease p w).LinesFollowRecords := by
  unfold State.takeRelease
  split
  · split
    · exact h.startWalk p _
    · exact h
  · exact h

theorem State.LinesFollowRecords.takeRetire (p : PortId) (w : WindowId) : (s.takeRetire p w).LinesFollowRecords := by
  unfold State.takeRetire
  split
  · split
    · exact h.endCurrent p _ _
    · exact h
  · exact h

/-! ### What the table takes (R10, R11, R14, R20, R79, R81, R82) -/

theorem State.LinesFollowRecords.evaluate (w : WindowId) : (s.evaluate w).LinesFollowRecords := by
  rcases hb : (s.record w).body with _ | b
  · rw [s.evaluate_free w hb]
    exact h
  · obtain ⟨port, -, -, -, -, config, -⟩ := s.evaluate_spec w b hb
    obtain ⟨units, alert⟩ := s.linesFollowRecords_iff.1 h
    refine (State.linesFollowRecords_iff _).2 ⟨fun p => ?_, config ▸ alert⟩
    rw [port]
    exact Units.evaluated_linesFollow units _ b p

theorem State.LinesFollowRecords.takeWalk (p : PortId) (a : AccessHead) : (s.takeWalk p a).LinesFollowRecords := by
  have taken : (s.walkTaken p).LinesFollowRecords := h.of_frame (by simp [State.walkTaken]) (by simp [State.walkTaken])
  rw [State.takeWalk_eq]
  unfold State.countAnswer
  split <;> exact taken

theorem State.LinesFollowRecords.offerAdded (p : PortId) : (s.offerAdded p).LinesFollowRecords := by
  unfold State.offerAdded
  split
  · exact h.offer p _ _
  · exact h

theorem State.LinesFollowRecords.subtract (w : WindowId) (e : Epoch) : (s.subtract w e).LinesFollowRecords :=
  (h.modifyCount w e _).evaluate w

theorem State.LinesFollowRecords.acknowledge (p : PortId) (w : WindowId) (g : Generation) :
    (s.acknowledge p w g).LinesFollowRecords := by
  unfold State.acknowledge
  split
  · exact h
  · split
    · exact (h.setBody w _).evaluate w
    · exact h

theorem State.LinesFollowRecords.leaveSet (p : PortId) (w : WindowId) : (s.leaveSet p w).LinesFollowRecords := by
  unfold State.leaveSet
  split
  · exact h
  · split
    · exact (h.setBody w _).evaluate w
    · exact h

omit h in
/-- One operation after another, over a list. -/
theorem State.LinesFollowRecords.foldl {α : Type} {f : State → α → State}
    (hf : ∀ (t : State) x, t.LinesFollowRecords → (f t x).LinesFollowRecords) :
    ∀ (l : List α) (t : State), t.LinesFollowRecords → (l.foldl f t).LinesFollowRecords
  | [], _, k => k
  | x :: l, t, k => State.LinesFollowRecords.foldl hf l (f t x) (hf t x k)

/-! ### The window requests (Section 3) -/

theorem State.LinesFollowRecords.onTableRequest (kind : RequestKind) {act : PortId → Captured → State → State}
    (hact : ∀ p c (t : State), t.LinesFollowRecords → (act p c t).LinesFollowRecords) :
    (s.onTableRequest kind act).LinesFollowRecords := by
  unfold State.onTableRequest
  split
  · exact h
  · split
    · rename_i p _ _ _
      have turned : State.LinesFollowRecords
        { s with table := { s.table with requestOrder := moveToEnd p s.table.requestOrder } } := h
      exact hact _ _ _ (turned.requestTaken p)
    · exact h

/-- A window request refused by its examination, or carried out (R49, R51). -/
theorem State.LinesFollowRecords.windowRequest (kind : RequestKind) {act : PortId → Captured → WindowId → State → State}
    (hact : ∀ p c w (t : State), t.LinesFollowRecords → (act p c w t).LinesFollowRecords) :
    (s.onTableRequest kind fun p c t => t.examineRequest kind p c (act p c)).LinesFollowRecords := by
  refine h.onTableRequest kind fun p c t k => ?_
  unfold State.examineRequest
  dsimp only
  split_ifs
  · exact k.postResult _ _ _
  · exact k.postResult _ _ _
  · split
    · exact k.postResult _ _ _
    · exact hact _ _ _ _ k
  · exact k.postResult _ _ _

theorem State.LinesFollowRecords.startOperation (w : WindowId) (b : WindowBody) :
    (s.startOperation w b).LinesFollowRecords :=
  (h.changeWindow w _).sendToPorts _ _

theorem State.LinesFollowRecords.postDone (w : WindowId) (p : PortId) (c : Captured) :
    (s.postDone w p c).LinesFollowRecords :=
  h.postResult _ _ _

theorem State.LinesFollowRecords.postCancelled (w : WindowId) (op : Option PendingOp) :
    (s.postCancelled w op).LinesFollowRecords := by
  unfold State.postCancelled
  split
  · exact h.postResult _ _ _
  · exact h

theorem State.LinesFollowRecords.takeDefine (p : PortId) (c : Captured) (w : WindowId) :
    (s.takeDefine p c w).LinesFollowRecords := by
  unfold State.takeDefine
  split
  · exact h.postResult _ _ _
  · exact ((h.changeWindow w _).setLinkEpoch w none).postDone w p c

theorem State.LinesFollowRecords.takeAmend (p : PortId) (c : Captured) (w : WindowId) :
    (s.takeAmend p c w).LinesFollowRecords := by
  unfold State.takeAmend
  dsimp only
  split
  · split
    · exact h.postResult _ _ _
    · exact ((h.changeWindow w _).setLinkEpoch w none).postDone w p c
  · exact h.postResult _ _ _

theorem State.LinesFollowRecords.takeEnable (p : PortId) (c : Captured) (w : WindowId) :
    (s.takeEnable p c w).LinesFollowRecords := by
  unfold State.takeEnable
  split
  · exact h
  · split
    · exact ((h.changeWindow w _).setLinkEpoch w _).postDone w p c
    · exact h.postResult _ _ _

theorem State.LinesFollowRecords.takeHold (p : PortId) (c : Captured) (w : WindowId) :
    (s.takeHold p c w).LinesFollowRecords := by
  unfold State.takeHold
  split
  · exact h
  · exact ((h.startOperation w _).breakAndLink w none).evaluate w

theorem State.LinesFollowRecords.takeReleaseRequest (p : PortId) (c : Captured) (w : WindowId) :
    (s.takeReleaseRequest p c w).LinesFollowRecords := by
  unfold State.takeReleaseRequest
  split
  · exact h
  · rename_i b _
    split
    · exact h.postResult _ _ _
    · have live := (h.changeWindow w (some { b with phase := .live, pendingOp := none })).setLinkEpoch w (some b.epoch)
      exact ((live.sendToPorts _ _).postDone w p c).postCancelled w _

theorem State.LinesFollowRecords.takeRetireRequest (p : PortId) (c : Captured) (w : WindowId) :
    (s.takeRetireRequest p c w).LinesFollowRecords := by
  unfold State.takeRetireRequest
  split
  · exact h
  · split
    · exact ((h.startOperation w _).breakAndLink w none).evaluate w
    · exact (((h.changeWindow w none).breakAndLink w none).sendToPorts _ _).postDone w p c
    · exact ((h.changeWindow w none).breakAndLink w none).postDone w p c

theorem State.LinesFollowRecords.takeSetRights (p : PortId) (c : Captured) (w : WindowId) :
    (s.takeSetRights p c w).LinesFollowRecords := by
  unfold State.takeSetRights
  dsimp only
  split
  · split
    · exact h.postResult _ _ _
    · refine State.LinesFollowRecords.evaluate ?_ w
      split
      · exact (h.startOperation w _).breakAndLink w _
      · exact h.startOperation w _
  · exact h.postResult _ _ _

theorem State.LinesFollowRecords.takeQueryWindow (p : PortId) (c : Captured) :
    (s.takeQueryWindow p c).LinesFollowRecords := by
  unfold State.takeQueryWindow
  dsimp only
  split_ifs <;> exact h.postResult _ _ _

/-! ### Requests to ports and to the configuration unit -/

theorem State.LinesFollowRecords.onRequest (kind : RequestKind) (issuer : PortId) {act : Captured → State → State}
    (hact : ∀ c (t : State), t.LinesFollowRecords → (act c t).LinesFollowRecords) :
    (s.onRequest kind issuer act).LinesFollowRecords := by
  unfold State.onRequest
  split
  · exact h
  · split
    · exact hact _ _ (h.requestTaken issuer)
    · exact h

theorem State.LinesFollowRecords.onPortRequest (kind : RequestKind) (issuer : PortId)
    {act : PortId → Captured → State → State}
    (hact : ∀ q c (t : State), t.LinesFollowRecords → (act q c t).LinesFollowRecords) :
    (s.onPortRequest kind issuer act).LinesFollowRecords := by
  refine h.onRequest kind issuer fun c t k => ?_
  split
  · exact hact _ _ _ k
  · exact k.postResult _ _ _

theorem State.LinesFollowRecords.reply (p : PortId) (c : Captured) (code : ResultCode) :
    (s.reply p c code).LinesFollowRecords :=
  h.postResult _ _ _

theorem State.LinesFollowRecords.takeOnline (i q : PortId) (c : Captured) :
    (s.takeOnline i q c).LinesFollowRecords := by
  unfold State.takeOnline
  split_ifs
  · exact h.reply _ _ _
  · exact h.reply _ _ _
  · have online := (h.modifyPort q (fun u => { u with state := .active }) id).sendToTable q .onlineNotice
    exact (online.setPermission q true).reply _ _ _

theorem State.LinesFollowRecords.takeOffline (i q : PortId) (c : Captured) :
    (s.takeOffline i q c).LinesFollowRecords := by
  unfold State.takeOffline
  split_ifs
  · exact h.reply _ _ _
  · exact h.reply _ _ _
  · exact h.reply _ _ _
  · have quiescing := h.modifyPort q
      (fun u => { u with state := .quiescing, offlineRequester := some (i, c.number) }) id
    exact ((quiescing.setReservation q none).setPermission q false).evaluateQuiesce q
  · exact h.reply _ _ _

theorem State.LinesFollowRecords.takeFence (i q : PortId) (c : Captured) : (s.takeFence i q c).LinesFollowRecords := by
  unfold State.takeFence
  split_ifs
  · exact h.reply _ _ _
  · exact h.reply _ _ _
  · exact (h.modifyPort q (fun u => { u with state := .fenced }) id).reply _ _ _
  · exact h.reply _ _ _

theorem State.LinesFollowRecords.takeUnfence (i q : PortId) (c : Captured) :
    (s.takeUnfence i q c).LinesFollowRecords := by
  unfold State.takeUnfence
  split_ifs
  · exact h.reply _ _ _
  · exact (h.modifyPort q (fun u => { u with state := .active }) id).reply _ _ _
  · exact h.reply _ _ _

theorem State.LinesFollowRecords.takeClearFault (i q : PortId) (c : Captured) :
    (s.takeClearFault i q c).LinesFollowRecords := by
  unfold State.takeClearFault
  split
  · exact (h.modifyPort q _ fun k => PortUnit.emptyFault_linesFollow k.2).reply _ _ _
  · exact h.reply _ _ _

theorem State.LinesFollowRecords.takeQueryPort (i q : PortId) (c : Captured) :
    (s.takeQueryPort i q c).LinesFollowRecords := by
  unfold State.takeQueryPort
  split
  · split <;> exact h.postResult _ _ _
  · exact h.reply _ _ _

omit h in
theorem ConfigUnit.setParam_lineFollows {g g' : ConfigUnit} {selector value : Nat}
    (hg : g.setParam selector value = some g') (k : g.LineFollows) : g'.LineFollows := by
  unfold ConfigUnit.setParam at hg
  split at hg <;> split at hg <;> cases hg <;> exact k

theorem State.LinesFollowRecords.takeSetParam (i : PortId) (c : Captured) :
    (s.takeSetParam i c).LinesFollowRecords := by
  unfold State.takeSetParam
  split_ifs
  · exact h.reply _ _ _
  · exact h.reply _ _ _
  · split
    · rename_i g hg
      have set : State.LinesFollowRecords { s with config := g } := ⟨h.1, ConfigUnit.setParam_lineFollows hg h.2⟩
      exact set.reply _ _ _
    · exact h.reply _ _ _

theorem State.LinesFollowRecords.takeClearDeviceFault (i : PortId) (c : Captured) :
    (s.takeClearDeviceFault i c).LinesFollowRecords := by
  unfold State.takeClearDeviceFault
  split
  · have cleared : State.LinesFollowRecords
        { s with config := { s.config with fault := none, overflow := 0, alertLine := false } } := ⟨h.1, by simp⟩
    exact cleared.reply _ _ _
  · exact h.reply _ _ _

theorem State.LinesFollowRecords.takeQueryDevice (i : PortId) (c : Captured) :
    (s.takeQueryDevice i c).LinesFollowRecords := by
  unfold State.takeQueryDevice
  split
  · split <;> exact h.postResult _ _ _
  · exact h.reply _ _ _

/-! ### Resets -/

theorem State.LinesFollowRecords.abandonCurrent (p : PortId) : (s.abandonCurrent p).LinesFollowRecords := by
  have idle := h.setCurrent p .idle
  unfold State.abandonCurrent
  dsimp only
  split
  · exact idle
  · exact idle.setStaleWalk p true
  · exact idle
  · exact idle
  · exact (idle.modifyEngine _).sendToTable p _
  · unfold State.abandonOnBus
    split
    · exact idle
    · split
      · split
        · exact idle
        · exact ((idle.engineSubtract _ _).modifyEngine _).choose
      · exact idle

theorem State.LinesFollowRecords.resetPort (p : PortId) : (s.resetPort p).LinesFollowRecords := by
  have reset := (h.abandonCurrent p).modifyPort p PortUnit.afterReset fun k =>
    PortUnit.emptyFault_linesFollow k.2
  exact ((reset.setReservation p none).clearSlot p).evaluateQuiesce p

theorem State.LinesFollowRecords.takeHeldReset (p : PortId) : (s.takeHeldReset p).LinesFollowRecords := by
  unfold State.takeHeldReset
  split
  · exact h.resetPort p
  · exact h

omit h in
/-- Every record is empty and every line released at the device reset (R177). -/
theorem State.deviceReset_linesFollowRecords (s : State) (st : Straps) : (s.deviceReset st).LinesFollowRecords := by
  refine ⟨fun p => ?_, ?_⟩
  · simp [State.deviceReset, State.port, resetPortUnit, resetSlot]
  · simp [State.deviceReset, resetConfig]

end

/-! ### The commands -/

section
variable {s t : State} (hs : s.LinesFollowRecords)
include hs

theorem execAddition_linesFollowRecords {p : PortId} (h : execAddition p s = .next t) : t.LinesFollowRecords := by
  cases h
  split
  · split
    · exact hs
    · exact (((hs.takeFromPort p _).modifyCount _ _ _).evaluate _).offerAdded p
  · exact hs

theorem execSubtraction_linesFollowRecords {sender : SubtractionSender} (h : execSubtraction sender s = .next t) :
    t.LinesFollowRecords := by
  cases h
  split
  · split
    · exact (hs.takeFromPort _ _).subtract _ _
    · exact hs
  · split
    · rename_i rest _
      have taken : State.LinesFollowRecords { s with links := { s.links with engineToTable := rest } } := hs
      exact taken.subtract _ _
    · exact hs

theorem execOfflineNotice_linesFollowRecords {p : PortId} (h : execOfflineNotice p s = .next t) :
    t.LinesFollowRecords := by
  cases h
  split
  · exact State.LinesFollowRecords.foldl (fun _ w k => k.leaveSet p w) _ _ ((hs.takeFromPort p _).setView p true)
  · exact hs

theorem execShootDown_linesFollowRecords {p : PortId} (h : execShootDown p s = .next t) : t.LinesFollowRecords := by
  cases h
  split
  · exact ((hs.setToPort p _).setLookaside p _).sendToTable p _
  · exact hs

theorem execPartAck_linesFollowRecords {lanes : Word} {n : Nat} (h : execPartAck lanes s n = .next t) :
    t.LinesFollowRecords := by
  cases h
  split
  · exact hs
  · rename_i part _
    have reported : (State.reportPart (s.modifyEngine Engine.endPart) part).LinesFollowRecords :=
      hs.endPart.of_frame (by simp) (by simp)
    dsimp only
    split
    · exact reported.endAbandoned _
    · exact reported.partCompleted _

theorem execPartErr_linesFollowRecords {n : Nat} (h : execPartErr s n = .next t) : t.LinesFollowRecords := by
  cases h
  split
  · exact hs
  · dsimp only
    split
    · exact hs.endPart.endAbandoned _
    · exact hs.endPart.failAccess _ _

theorem execPartRty_linesFollowRecords {n : Nat} (h : execPartRty s n = .next t) : t.LinesFollowRecords := by
  cases h
  split
  · exact hs
  · dsimp only
    split
    · exact hs.endPart.endAbandoned _
    · exact hs.endPart.retryPart _

theorem execResponseTimerExpiry_linesFollowRecords (h : execResponseTimerExpiry s = .next t) :
    t.LinesFollowRecords := by
  cases h
  split
  · exact hs
  · dsimp only
    split
    · exact hs.endPart.endAbandoned _
    · exact hs.endPart.failAccess _ _

theorem execEntryFinishedReport_linesFollowRecords {p : PortId} (h : execEntryFinishedReport p s = .next t) :
    t.LinesFollowRecords := by
  cases h
  split
  · exact hs
  · have reported : State.LinesFollowRecords
      { s with links := { s.links with reports := vput s.links.reports p (s.links.reports.get p - 1) } } := hs
    exact (reported.modifyPort p (fun u => { u with occupancyCopy := u.occupancyCopy - 1 }) id).evaluateQuiesce p

end

theorem execDeviceReset_linesFollowRecords {st : Straps} {s t : State} (h : execDeviceReset st s = .next t) :
    t.LinesFollowRecords := by
  rw [← Host.Outcome.next.inj h]
  exact (State.LinesFollowRecords.foldl (fun _ p k => k.takeHeldReset p) allPorts _
    (s.deviceReset_linesFollowRecords st)).choose

theorem exec_linesFollowRecords {i : Instr} {s t : State} (h : exec i s = .next t) (hs : s.LinesFollowRecords) :
    t.LinesFollowRecords := by
  cases i with
  | accessArrival p a => cases h; exact hs.presentAccess p _
  | registerWrite p word value => cases h; exact hs.presentAccess p _
  | acknowledge p => cases h; exact hs.presentAccess p _
  | walk =>
    cases h
    split
    · exact hs
    · split
      · exact hs
      · exact hs.takeWalk _ _
  | admitAnswer p =>
    cases h
    split
    · exact (hs.setToPort p _).takeAdmitted p _
    · exact hs
  | denyAnswer p =>
    cases h
    split
    · exact (hs.setToPort p _).takeDenied p _ _
    · exact hs
  | noneAnswer p =>
    cases h
    split
    · exact (hs.setToPort p _).takeNoWindow p
    · exact hs
  | parkAnswer p =>
    cases h
    split
    · exact (hs.setToPort p _).takePark p _
    · exact hs
  | addition p => exact execAddition_linesFollowRecords hs h
  | subtraction sender => exact execSubtraction_linesFollowRecords hs h
  | acknowledgement p =>
    cases h
    split
    · exact (hs.takeFromPort p _).acknowledge p _ _
    · exact hs
  | offlineNotice p => exact execOfflineNotice_linesFollowRecords hs h
  | onlineNotice p =>
    cases h
    split
    · exact hs.takeFromPort p _
    · exact hs
  | shootDown p => exact execShootDown_linesFollowRecords hs h
  | releaseNotice p =>
    cases h
    split
    · exact (hs.setToPort p _).takeRelease p _
    · exact hs
  | retireNotice p =>
    cases h
    split
    · exact (hs.setToPort p _).takeRetire p _
    · exact hs
  | parkTimerExpiry p =>
    cases h
    split
    · exact hs.endCurrent p _ _
    · exact hs
  | define => cases h; exact hs.windowRequest _ fun p c w _ k => k.takeDefine p c w
  | amend => cases h; exact hs.windowRequest _ fun p c w _ k => k.takeAmend p c w
  | enable => cases h; exact hs.windowRequest _ fun p c w _ k => k.takeEnable p c w
  | hold => cases h; exact hs.windowRequest _ fun p c w _ k => k.takeHold p c w
  | release => cases h; exact hs.windowRequest _ fun p c w _ k => k.takeReleaseRequest p c w
  | retire => cases h; exact hs.windowRequest _ fun p c w _ k => k.takeRetireRequest p c w
  | setRights => cases h; exact hs.windowRequest _ fun p c w _ k => k.takeSetRights p c w
  | queryWindow => cases h; exact hs.onTableRequest _ fun p c _ k => k.takeQueryWindow p c
  | portOnline i => cases h; exact hs.onPortRequest _ i fun q c _ k => k.takeOnline i q c
  | portOffline i => cases h; exact hs.onPortRequest _ i fun q c _ k => k.takeOffline i q c
  | fence i => cases h; exact hs.onPortRequest _ i fun q c _ k => k.takeFence i q c
  | unfence i => cases h; exact hs.onPortRequest _ i fun q c _ k => k.takeUnfence i q c
  | clearFault i => cases h; exact hs.onPortRequest _ i fun q c _ k => k.takeClearFault i q c
  | queryPort i => cases h; exact hs.onPortRequest _ i fun q c _ k => k.takeQueryPort i q c
  | setParam i => cases h; exact hs.onRequest _ i fun c _ k => k.takeSetParam i c
  | clearDeviceFault i => cases h; exact hs.onRequest _ i fun c _ k => k.takeClearDeviceFault i c
  | queryDevice i => cases h; exact hs.onRequest _ i fun c _ k => k.takeQueryDevice i c
  | resultTaken p number result => cases h; exact hs.postResult p _ _
  | partAck lanes number => exact execPartAck_linesFollowRecords hs h
  | partErr number => exact execPartErr_linesFollowRecords hs h
  | partRty number => exact execPartRty_linesFollowRecords hs h
  | responseTimerExpiry => exact execResponseTimerExpiry_linesFollowRecords hs h
  | retryWaitExpiry =>
    cases h
    split
    · exact (hs.modifyEngine _).choose
    · exact hs
  | externalRequest =>
    cases h
    split
    · exact hs
    · exact (hs.modifyEngine _).choose
  | externalWithdraw =>
    cases h
    split
    · exact (hs.modifyEngine _).choose
    · exact hs
  | externalWriteAck addr size => cases h; split <;> exact hs
  | entryFinishedReport p => exact execEntryFinishedReport_linesFollowRecords hs h
  | portReset p =>
    cases h
    split
    · exact hs
    · exact (hs.setResetInput p true).resetPort p
  | deviceReset straps => exact execDeviceReset_linesFollowRecords h
  | portResetRelease p => cases h; exact hs.setResetInput p false

/-- Settles O51: a fault record and its line change together, in `PortUnit.offered`, `PortUnit.emptyFault` and the
device's own, and so do a slot's state and DONE (`Slot.LineFollows`); every command is made of operations that keep
both. -/
theorem linesKeepFollowingRecords : Obligations.LinesKeepFollowingRecords := by
  intro s t hs h
  unfold step at h
  split at h
  · cases h
    exact ⟨fun p => by simpa [State.tick, State.tickTimers, State.port] using hs.1 p, hs.2⟩
  · exact exec_linesFollowRecords h hs

end Sys2Proof.Machine
end

section
/-! The requests that port units and the configuration unit take (8.4, 8.5, 9.2, 9.3, 10.4): each examination step as an
equation, the refusals of R156, R167, R168 and R188, and FENCE, UNFENCE, CLEAR_FAULT and CLEAR_DEVICE_FAULT. -/

namespace Sys2Proof.Machine

/-! ### The taking of a request (R175, R186) -/

/-- A port that is told of its request's taking keeps what the examinations read. -/
@[simp] theorem Units.told_frame (u : Units) (p q : PortId) :
    (u.told p q).state = (u q).state ∧ (u.told p q).role = (u q).role ∧ (u.told p q).fault = (u q).fault := by
  unfold Units.told Units.put
  by_cases h : q = p <;> simp [h]

/-- Port i's request is taken by this command and answered in the same event: these units and this configuration unit
are left, and a request held at the slot of i is sent (R175, R186). -/
def State.Answers (s : State) (i : PortId) (command : Instr) (units : Units) (config : ConfigUnit) : Prop :=
  ∃ t, exec command s = .next t ∧ t.port = units ∧
    t = { s with ports := t.ports, links := { s.links with requests := s.requestsAfter i }, config := config }

section
variable {s u : State} {i q : PortId} {c : Captured} {command : Instr} {code : ResultCode}
  (he : exec command s = .next u)
include he

/-- A request that changes nothing but the slot it is answered at: a refusal. -/
theorem State.Answers.of_reply (hu : u = (s.requestTaken i).reply i c code) :
    s.Answers i command ((Units.told s.port i).given i c.number (plainResult code none)) s.config := by
  refine ⟨u, he, ?_, ?_⟩ <;> rw [hu, State.reply]
  · rw [State.postResult_port, State.requestTaken_port]
  · exact (State.postResult_eq _ _ _ _).trans rfl

/-- A request that changes its target's unit. -/
theorem State.Answers.of_modifyPort {f : PortUnit → PortUnit}
    (hu : u = ((s.requestTaken i).modifyPort q f).reply i c code) :
    s.Answers i command
      ((Units.put (Units.told s.port i) q (f (Units.told s.port i q))).given i c.number (plainResult code none))
      s.config := by
  refine ⟨u, he, ?_, ?_⟩ <;> rw [hu, State.reply]
  · rw [State.postResult_port, State.modifyPort_units, State.requestTaken_port]
  · exact (State.postResult_eq _ _ _ _).trans rfl

/-- A request that changes the configuration unit. -/
theorem State.Answers.of_config {g : ConfigUnit}
    (hu : u = State.reply { s.requestTaken i with config := g } i c code) :
    s.Answers i command ((Units.told s.port i).given i c.number (plainResult code none)) g := by
  refine ⟨u, he, ?_, ?_⟩ <;> rw [hu, State.reply]
  · rw [State.postResult_port]
    exact congrArg (fun us : Units => us.given i c.number (plainResult code none)) (s.requestTaken_port i)
  · exact (State.postResult_eq _ _ _ _).trans rfl

end

section
variable {s : State} {i q : PortId} {c : Captured}

theorem exec_portOnline (h : s.Asks i c .portOnline) (ht : c.target = q.val) :
    exec (.portOnline i) s = .next ((s.requestTaken i).takeOnline i q c) :=
  congrArg _ (State.onPortRequest_of h ht _)

theorem exec_portOffline (h : s.Asks i c .portOffline) (ht : c.target = q.val) :
    exec (.portOffline i) s = .next ((s.requestTaken i).takeOffline i q c) :=
  congrArg _ (State.onPortRequest_of h ht _)

theorem exec_fence (h : s.Asks i c .fence) (ht : c.target = q.val) :
    exec (.fence i) s = .next ((s.requestTaken i).takeFence i q c) :=
  congrArg _ (State.onPortRequest_of h ht _)

theorem exec_unfence (h : s.Asks i c .unfence) (ht : c.target = q.val) :
    exec (.unfence i) s = .next ((s.requestTaken i).takeUnfence i q c) :=
  congrArg _ (State.onPortRequest_of h ht _)

theorem exec_clearFault (h : s.Asks i c .clearFault) (ht : c.target = q.val) :
    exec (.clearFault i) s = .next ((s.requestTaken i).takeClearFault i q c) :=
  congrArg _ (State.onPortRequest_of h ht _)

theorem exec_queryPort (h : s.Asks i c .queryPort) (ht : c.target = q.val) :
    exec (.queryPort i) s = .next ((s.requestTaken i).takeQueryPort i q c) :=
  congrArg _ (State.onPortRequest_of h ht _)

theorem exec_clearDeviceFault (h : s.Asks i c .clearDeviceFault) :
    exec (.clearDeviceFault i) s = .next ((s.requestTaken i).takeClearDeviceFault i c) :=
  congrArg _ (State.onRequest_of h _)

/-! ### Requests from a port that may not issue them (R156, R162, R167, R168, R188) -/

theorem State.supervisor_iff (s : State) (p : PortId) : s.supervisor p = true ↔ (s.port p).role = .supervisor :=
  beq_iff_eq

theorem State.mayInspect_iff (s : State) (i q : PortId) :
    s.mayInspect i q = true ↔ (s.port i).role = .supervisor ∨ q = i := by
  rw [State.mayInspect, Bool.or_eq_true, beq_iff_eq, State.supervisor_iff, or_comm]

section
variable (ordinary : (s.port i).role ≠ .supervisor)
include ordinary

theorem State.takeOnline_denied : s.takeOnline i q c = s.reply i c .denied := by
  simp [State.takeOnline, State.supervisor_iff, ordinary]

theorem State.takeOffline_denied : s.takeOffline i q c = s.reply i c .denied := by
  simp [State.takeOffline, State.supervisor_iff, ordinary]

theorem State.takeFence_denied : s.takeFence i q c = s.reply i c .denied := by
  simp [State.takeFence, State.supervisor_iff, ordinary]

theorem State.takeUnfence_denied : s.takeUnfence i q c = s.reply i c .denied := by
  simp [State.takeUnfence, State.supervisor_iff, ordinary]

theorem State.takeClearDeviceFault_denied : s.takeClearDeviceFault i c = s.reply i c .denied := by
  simp [State.takeClearDeviceFault, State.supervisor_iff, ordinary]

theorem State.takeClearFault_denied (other : q ≠ i) : s.takeClearFault i q c = s.reply i c .denied := by
  simp [State.takeClearFault, State.mayInspect_iff, ordinary, other]

theorem State.takeQueryPort_denied (other : q ≠ i) : s.takeQueryPort i q c = s.reply i c .denied := by
  simp [State.takeQueryPort, State.mayInspect_iff, ordinary, other]

end

/-- Port I0 is taken offline by no other port (R168). -/
theorem State.takeOffline_portZero (other : 0 ≠ i) : s.takeOffline i 0 c = s.reply i c .denied := by
  simp [State.takeOffline, other]

/-! ### Requests from a supervisor (R156 to R158, R162, R167, R168) -/

section
variable (supervisor : (s.port i).role = .supervisor)
include supervisor

theorem State.takeOnline_state (h : (s.port q).state ≠ .offline) : s.takeOnline i q c = s.reply i c .state := by
  simp [State.takeOnline, State.supervisor_iff, supervisor, h]

theorem State.takeOffline_self : s.takeOffline i i c = s.reply i c .self := by
  simp [State.takeOffline, State.supervisor_iff, supervisor]

theorem State.takeOffline_state (other : q ≠ i) (notZero : q ≠ 0)
    (h : (s.port q).state = .quiescing ∨ (s.port q).state = .offline) :
    s.takeOffline i q c = s.reply i c .state := by
  rcases h with h | h <;> simp [State.takeOffline, State.supervisor_iff, supervisor, other, notZero, h]

theorem State.takeFence_self : s.takeFence i i c = s.reply i c .self := by
  simp [State.takeFence, State.supervisor_iff, supervisor]

theorem State.takeFence_state (other : q ≠ i) (h : (s.port q).state ≠ .active) :
    s.takeFence i q c = s.reply i c .state := by
  simp [State.takeFence, State.supervisor_iff, supervisor, other, h]

theorem State.takeFence_active (other : q ≠ i) (h : (s.port q).state = .active) :
    s.takeFence i q c = (s.modifyPort q fun u => { u with state := .fenced }).reply i c .done := by
  simp [State.takeFence, State.supervisor_iff, supervisor, other, h]

theorem State.takeUnfence_state (h : (s.port q).state ≠ .fenced ∨ (s.port q).fault ≠ none) :
    s.takeUnfence i q c = s.reply i c .state := by
  have : ¬ ((s.port q).state = .fenced ∧ (s.port q).fault = none) := by tauto
  simp [State.takeUnfence, State.supervisor_iff, supervisor, this]

theorem State.takeUnfence_fenced (h : (s.port q).state = .fenced) (empty : (s.port q).fault = none) :
    s.takeUnfence i q c = (s.modifyPort q fun u => { u with state := .active }).reply i c .done := by
  simp [State.takeUnfence, State.supervisor_iff, supervisor, h, empty]

theorem State.takeClearDeviceFault_done :
    s.takeClearDeviceFault i c = State.reply
      { s with config := { s.config with fault := none, overflow := 0, alertLine := false } } i c .done := by
  simp [State.takeClearDeviceFault, State.supervisor_iff, supervisor]

end

/-! ### Requests from the target itself or a supervisor (R159, R188) -/

/-- QUERY_PORT has the selectors 0 to 5 (R188). -/
theorem State.portContents_none (s : State) (p : PortId) {selector : Nat} (h : 6 ≤ selector) :
    s.portContents p selector = none := by
  obtain ⟨k, rfl⟩ := Nat.exists_eq_add_of_le' h
  rfl

section
variable (may : (s.port i).role = .supervisor ∨ q = i)
include may

theorem State.takeClearFault_done :
    s.takeClearFault i q c = (s.modifyPort q PortUnit.emptyFault).reply i c .done :=
  if_pos ((s.mayInspect_iff i q).2 may)

theorem State.takeQueryPort_invalid (h : 6 ≤ (c.params.get 0).toNat) :
    s.takeQueryPort i q c = s.reply i c .invalid := by
  rw [State.takeQueryPort, if_pos ((s.mayInspect_iff i q).2 may), State.portContents_none s q (show 6 ≤ c.value from h)]

end

end

/-! ### The obligations -/

/-- Settles O30: the refusals are the equations above, of the state in which the target takes the request; the taking
keeps the roles, the port states and the fault records (`Units.told_frame`). -/
theorem portRequestsAreExaminedInOrder : Obligations.PortRequestsAreExaminedInOrder := by
  intro s i q c ht supervisor refuses
  have role : ((s.requestTaken i).port i).role = (s.port i).role := by simp
  have state : ((s.requestTaken i).port q).state = (s.port q).state := by simp
  have fault : ((s.requestTaken i).port q).fault = (s.port q).fault := by simp
  refine ⟨fun ordinary => ?_, fun hs self => ?_, fun hs other zero h => ?_, fun hs other notZero hq h => ?_,
    fun hs hq h => ?_, fun hs other hq h => ?_, fun hs hq h => ?_, fun may selector h => ?_⟩
  · have ordinary : ((s.requestTaken i).port i).role ≠ .supervisor := role ▸ ordinary
    exact ⟨fun h => State.Answers.of_reply (exec_portOnline h ht) (State.takeOnline_denied ordinary),
      fun h => State.Answers.of_reply (exec_portOffline h ht) (State.takeOffline_denied ordinary),
      fun h => State.Answers.of_reply (exec_fence h ht) (State.takeFence_denied ordinary),
      fun h => State.Answers.of_reply (exec_unfence h ht) (State.takeUnfence_denied ordinary),
      fun other => ⟨fun h => State.Answers.of_reply (exec_clearFault h ht) (State.takeClearFault_denied ordinary other),
        fun h => State.Answers.of_reply (exec_queryPort h ht) (State.takeQueryPort_denied ordinary other)⟩⟩
  · subst self
    exact ⟨fun h => State.Answers.of_reply (exec_portOffline h ht) (State.takeOffline_self (role.trans hs)),
      fun h => State.Answers.of_reply (exec_fence h ht) (State.takeFence_self (role.trans hs))⟩
  · subst zero
    exact State.Answers.of_reply (exec_portOffline h ht) (State.takeOffline_portZero other)
  · exact State.Answers.of_reply (exec_portOffline h ht)
      (State.takeOffline_state (role.trans hs) other notZero (state ▸ hq))
  · exact State.Answers.of_reply (exec_portOnline h ht) (State.takeOnline_state (role.trans hs) (state ▸ hq))
  · exact State.Answers.of_reply (exec_fence h ht) (State.takeFence_state (role.trans hs) other (state ▸ hq))
  · exact State.Answers.of_reply (exec_unfence h ht) (State.takeUnfence_state (role.trans hs) (state ▸ fault ▸ hq))
  · exact State.Answers.of_reply (exec_queryPort h ht) (State.takeQueryPort_invalid (role ▸ may) selector)

/-- Settles O32: each request, accepted, changes its target's unit and replies DONE (`State.Answers.of_modifyPort`). -/
theorem fenceUnfenceAndClearFault : Obligations.FenceUnfenceAndClearFault := by
  refine ⟨fun s i q c ht supervisor => ?_, fun s i q c h ht may => ?_⟩
  · have supervisor : ((s.requestTaken i).port i).role = .supervisor := by simpa using supervisor
    refine ⟨fun h other active => ?_, fun h fenced empty => ?_⟩
    · exact State.Answers.of_modifyPort (exec_fence h ht)
        (State.takeFence_active supervisor other (by simpa using active))
    · exact State.Answers.of_modifyPort (exec_unfence h ht)
        (State.takeUnfence_fenced supervisor (by simpa using fenced) (by simpa using empty))
  · exact State.Answers.of_modifyPort (exec_clearFault h ht) (State.takeClearFault_done (by simpa using may))

/-- Settles O36: only the role of the issuer decides, and an accepted request changes the configuration unit alone
(`State.Answers.of_config`). -/
theorem clearDeviceFaultEmptiesTheRecord : Obligations.ClearDeviceFaultEmptiesTheRecord := by
  intro s i c h replies
  refine ⟨fun supervisor => ?_, fun ordinary => ?_⟩
  · exact State.Answers.of_config (exec_clearDeviceFault h)
      (State.takeClearDeviceFault_done (by simpa using supervisor))
  · exact State.Answers.of_reply (exec_clearDeviceFault h) (State.takeClearDeviceFault_denied (by simpa using ordinary))

end Sys2Proof.Machine
end

section
/-! The laws of the port states (R53, R146, R166 to R171): what they read of a state, and the operations that leave all of
it, the reservations apart, as it was. -/

namespace Sys2Proof.Machine

/-! ### What the laws read -/

/-- The unit holds none of the work that R171 excludes at an OFFLINE port. -/
def PortUnit.Vacant (u : PortUnit) : Prop :=
  u.lookaside = emptyLookaside ∧ u.current = .idle ∧ u.occupancyCopy = 0

/-- The law of R171 while port p's copy still counts `owed p` entries that have left the store without their reports
(R127): the law itself where nothing is owed. -/
structure State.Accounts (s : State) (owed : PortId → Nat) : Prop where
  vacant : ∀ p, (s.port p).state = .offline → (s.port p).Vacant
  record : ∀ r, s.engine.access = some r → r.fromStore = true → r.origin ∈ s.storePorts
  copy : ∀ p, (s.port p).occupancyCopy = s.storePorts.count p + s.links.reports.get p + owed p
  closed : ∀ p, (s.port p).state = .quiescing ∨ (s.port p).state = .offline →
    s.monitor.permission.get p = false ∧ s.reservation p = none

theorem State.noEntry_iff {s : State} {p : PortId} : s.NoEntry p ↔ p ∉ s.storePorts := by
  simp [State.NoEntry, State.storePorts]

theorem State.portsAccountForWork_iff {s : State} : s.PortsAccountForWork ↔ s.Accounts fun _ => 0 := by
  have entries : ∀ p, (s.engine.store.filter fun e => e.port = p).length = s.storePorts.count p := fun p => by
    rw [State.storePorts, List.count, List.countP_map, List.countP_eq_length_filter]
    rfl
  unfold State.PortsAccountForWork State.OfflinePortsHoldNothing
  simp only [State.noEntry_iff, entries, not_not]
  constructor
  · rintro ⟨nothing, record, copy, closed, drained⟩
    refine ⟨fun p h => ?_, record, copy, closed⟩
    obtain ⟨entries, -, idle, -⟩ := nothing p h
    exact ⟨entries, idle, drained p h⟩
  · rintro ⟨vacant, record, copy, closed⟩
    refine ⟨fun p h => ?_, record, copy, closed, fun p h => (vacant p h).2.2⟩
    obtain ⟨entries, idle, drained⟩ := vacant p h
    have empty : s.storePorts.count p = 0 := by
      have counted := copy p
      omega
    exact ⟨entries, (closed p (.inr h)).2, idle, List.count_eq_zero.1 empty⟩

/-- The unit v has the state, the access, the lookaside and the occupancy copy of u. -/
structure PortUnit.SameWork (u v : PortUnit) : Prop where
  state : v.state = u.state
  current : v.current = u.current
  lookaside : v.lookaside = u.lookaside
  copy : v.occupancyCopy = u.occupancyCopy

theorem PortUnit.SameWork.refl (u : PortUnit) : u.SameWork u := ⟨rfl, rfl, rfl, rfl⟩

theorem PortUnit.SameWork.trans {u v w : PortUnit} (h : u.SameWork v) (k : v.SameWork w) : u.SameWork w :=
  ⟨k.state.trans h.state, k.current.trans h.current, k.lookaside.trans h.lookaside, k.copy.trans h.copy⟩

theorem PortUnit.SameWork.quiesceMet {u v : PortUnit} (h : u.SameWork v) (met : v.QuiesceMet) : u.QuiesceMet := by
  obtain ⟨state, current, copy⟩ := met
  exact ⟨h.state.symm.trans state, h.current.symm.trans current, h.copy.symm.trans copy⟩

theorem PortUnit.SameWork.vacant {u v : PortUnit} (h : u.SameWork v) (vacant : u.Vacant) : v.Vacant := by
  obtain ⟨lookaside, current, copy⟩ := vacant
  exact ⟨h.lookaside.trans lookaside, h.current.trans current, h.copy.trans copy⟩

theorem Units.given_sameWork (u : Units) (p : PortId) (n : RequestNumber) (r : Result) (q : PortId) :
    (u q).SameWork (u.given p n r q) := by
  constructor <;> simp

theorem Units.evaluated_sameWork (u : Units) (g : Generation) (b : WindowBody) (q : PortId) :
    (u q).SameWork (u.evaluated g b q) := by
  constructor <;> simp

/-- All that the laws of the port states read is as in s, or a reservation or a notice less. -/
structure State.LeavesPorts (s t : State) : Prop where
  unit : ∀ p, (s.port p).SameWork (t.port p)
  engine : t.engine = s.engine
  reports : t.links.reports = s.links.reports
  permission : t.monitor.permission = s.monitor.permission
  view : t.table.offlineView = s.table.offlineView
  reservation : ∀ p, s.reservation p = none → t.reservation p = none
  notice : PortMessage.offlineNotice ∈ t.toTable 0 → PortMessage.offlineNotice ∈ s.toTable 0

theorem State.LeavesPorts.refl (s : State) : s.LeavesPorts s :=
  ⟨fun _ => .refl _, rfl, rfl, rfl, rfl, fun _ => id, id⟩

theorem State.LeavesPorts.trans {s t u : State} (h : s.LeavesPorts t) (k : t.LeavesPorts u) : s.LeavesPorts u where
  unit p := (h.unit p).trans (k.unit p)
  engine := k.engine.trans h.engine
  reports := k.reports.trans h.reports
  permission := k.permission.trans h.permission
  view := k.view.trans h.view
  reservation p := k.reservation p ∘ h.reservation p
  notice := h.notice ∘ k.notice

/-- An operation on the records, the waiting walks, the channels to the ports, the requests or the configuration unit. -/
theorem State.LeavesPorts.of_frame {s t : State} (hp : t.ports = s.ports) (he : t.engine = s.engine)
    (hr : t.links.reports = s.links.reports) (hm : t.monitor = s.monitor)
    (hv : t.table.offlineView = s.table.offlineView) (hl : t.links.toTable = s.links.toTable) : s.LeavesPorts t where
  unit p := by rw [State.port_congr hp]; exact .refl _
  engine := he
  reports := hr
  permission := by rw [hm]
  view := hv
  reservation p h := by unfold State.reservation at *; rwa [hm]
  notice h := by unfold State.toTable at *; rwa [hl] at h

/-! ### One unit, the slots and the fault records -/

section
variable (s : State) (p : PortId)

theorem State.modifyPort_leaves (f : PortUnit → PortUnit) (h : (s.port p).SameWork (f (s.port p))) :
    s.LeavesPorts (s.modifyPort p f) where
  unit q := by
    rw [State.modifyPort_port_at]
    split
    · rename_i hq
      exact hq ▸ h
    · exact .refl _
  engine := rfl
  reports := rfl
  permission := rfl
  view := rfl
  reservation _ := id
  notice := id

theorem State.answer_leaves (a : Answer) : s.LeavesPorts (s.answer p a) := s.modifyPort_leaves p _ ⟨rfl, rfl, rfl, rfl⟩

theorem State.setStaleWalk_leaves (b : Bool) : s.LeavesPorts (s.setStaleWalk p b) :=
  s.modifyPort_leaves p _ ⟨rfl, rfl, rfl, rfl⟩

theorem State.setResetInput_leaves (b : Bool) : s.LeavesPorts (s.setResetInput p b) :=
  s.modifyPort_leaves p _ ⟨rfl, rfl, rfl, rfl⟩

theorem State.modifySlot_leaves (f : Slot → Slot) : s.LeavesPorts (s.modifySlot p f) :=
  s.modifyPort_leaves p _ ⟨rfl, rfl, rfl, rfl⟩

theorem State.clearSlot_leaves : s.LeavesPorts (s.clearSlot p) := by
  unfold State.clearSlot
  exact s.modifyPort_leaves p _ ⟨rfl, rfl, rfl, rfl⟩

theorem State.emptyFault_leaves : s.LeavesPorts (s.modifyPort p PortUnit.emptyFault) :=
  s.modifyPort_leaves p _ ⟨rfl, rfl, rfl, rfl⟩

theorem State.postResult_leaves (n : RequestNumber) (r : Result) : s.LeavesPorts (s.postResult p n r) where
  unit q := by rw [State.postResult_port]; exact Units.given_sameWork _ _ _ _ q
  engine := by simp
  reports := by simp
  permission := by simp
  view := by simp
  reservation q h := by simpa [State.reservation] using h
  notice h := by simpa [State.toTable] using h

theorem State.setRequest_leaves (c : Option Captured) : s.LeavesPorts (s.setRequest p c) :=
  .of_frame rfl rfl rfl rfl rfl rfl

theorem State.requestTaken_leaves : s.LeavesPorts (s.requestTaken p) :=
  (s.modifyPort_leaves p (fun u => { u with staleRequest := false, slot := { u.slot with held := none } })
    ⟨rfl, rfl, rfl, rfl⟩).trans (State.setRequest_leaves _ p _)

theorem State.offerDeviceFault_leaves (f : FaultInfo) : s.LeavesPorts (s.offerDeviceFault f p) :=
  .of_frame (by simp) (by simp) (by simp) (by simp) (by simp) (by simp)

/-! ### Channels (R76) -/

theorem State.settleWalk_notice {q : PortId} (h : PortMessage.offlineNotice ∈ (s.settleWalk p).toTable q) :
    PortMessage.offlineNotice ∈ s.toTable q := by
  unfold State.settleWalk at h
  split at h
  · rename_i head rest ht hw
    rw [State.setWaitingWalk_toTable_at, State.setToTable_toTable_at] at h
    split at h
    · rename_i hq
      rw [hq, ht]
      exact List.mem_cons_of_mem _ h
    · exact h
  · exact h

theorem State.settleWalk_leaves : s.LeavesPorts (s.settleWalk p) where
  unit q := by rw [State.port_congr (s := s) (t := s.settleWalk p) (by simp)]; exact .refl _
  engine := by simp
  reports := by simp
  permission := by simp
  view := by simp
  reservation q h := by simpa [State.reservation] using h
  notice := s.settleWalk_notice p

theorem State.setToTable_leaves (l : List PortMessage)
    (h : p = 0 → PortMessage.offlineNotice ∈ l → PortMessage.offlineNotice ∈ s.toTable p) :
    s.LeavesPorts (s.setToTable p l) where
  unit _ := .refl _
  engine := rfl
  reports := rfl
  permission := rfl
  view := rfl
  reservation _ := id
  notice hm := by
    rw [State.setToTable_toTable_at] at hm
    split at hm
    · rename_i hp
      exact hp ▸ h hp.symm hm
    · exact hm

/-- The one message that the laws speak of is the offline notice of I0. -/
theorem State.sendToTable_leaves (m : PortMessage) (h : p = 0 → m ≠ .offlineNotice) :
    s.LeavesPorts (s.sendToTable p m) :=
  (s.setToTable_leaves p _ fun hp hm =>
    (List.mem_append.1 hm).resolve_right fun k => h hp (List.mem_singleton.1 k).symm).trans
    (State.settleWalk_leaves _ p)

theorem State.takeFromPort_leaves {m : PortMessage} {rest : List PortMessage} (h : s.toTable p = m :: rest) :
    s.LeavesPorts (s.takeFromPort p rest) :=
  (s.setToTable_leaves p rest fun _ hm => h ▸ List.mem_cons_of_mem m hm).trans (State.settleWalk_leaves _ p)

theorem State.setToPort_leaves (l : List TableMessage) : s.LeavesPorts (s.setToPort p l) :=
  .of_frame rfl rfl rfl rfl rfl rfl

theorem State.sendToPort_leaves (m : TableMessage) : s.LeavesPorts (s.sendToPort p m) :=
  .of_frame rfl rfl rfl rfl rfl rfl

theorem State.sendToPorts_leaves (ps : List PortId) (m : TableMessage) : s.LeavesPorts (s.sendToPorts ps m) :=
  .of_frame (by simp) (by simp) (by simp) (by simp) (by simp) (by simp)

theorem State.engineSubtract_leaves (w : WindowId) (e : Epoch) : s.LeavesPorts (s.engineSubtract w e) :=
  .of_frame rfl rfl rfl rfl rfl rfl

/-! ### The reservation monitor (Section 7) -/

theorem State.setReservation_leaves : s.LeavesPorts (s.setReservation p none) where
  unit _ := .refl _
  engine := rfl
  reports := rfl
  permission := rfl
  view := rfl
  reservation q h := by
    rw [State.setReservation_reservation_at]
    split
    · rfl
    · exact h
  notice := id

theorem State.keepReservations_leaves (keep : Reservation → Bool) : s.LeavesPorts (s.keepReservations keep) where
  unit _ := .refl _
  engine := rfl
  reports := rfl
  permission := rfl
  view := rfl
  reservation q h := by rw [State.keepReservations_reservation_at, h]; rfl
  notice := id

theorem State.setLinkEpoch_leaves (w : WindowId) (e : Option Epoch) : s.LeavesPorts (s.setLinkEpoch w e) :=
  ⟨fun _ => .refl _, rfl, rfl, rfl, rfl, fun _ => id, id⟩

theorem State.breakAndLink_leaves (w : WindowId) (e : Option Epoch) : s.LeavesPorts (s.breakAndLink w e) :=
  (s.keepReservations_leaves _).trans (State.setLinkEpoch_leaves _ w e)

theorem State.dropForLinkedRead_leaves (h : AccessHead) : s.LeavesPorts (s.dropForLinkedRead p h) := by
  unfold State.dropForLinkedRead
  split
  · exact s.setReservation_leaves p
  · exact .refl s

theorem State.reportPart_leaves (part : BusPart) : s.LeavesPorts (s.reportPart part) := by
  unfold State.reportPart
  split
  · exact s.keepReservations_leaves _
  · exact .refl s

/-! ### Records and pending operations (1.2, R14) -/

theorem State.setBody_leaves (w : WindowId) (b : Option WindowBody) : s.LeavesPorts (s.setBody w b) :=
  .of_frame rfl rfl rfl rfl rfl rfl

theorem State.changeWindow_leaves (w : WindowId) (b : Option WindowBody) : s.LeavesPorts (s.changeWindow w b) :=
  .of_frame rfl rfl rfl rfl rfl rfl

theorem State.modifyCount_leaves (w : WindowId) (e : Epoch) (f : Nat → Nat) : s.LeavesPorts (s.modifyCount w e f) :=
  .of_frame rfl rfl rfl rfl rfl rfl

theorem State.evaluate_leaves (w : WindowId) : s.LeavesPorts (s.evaluate w) := by
  rcases hb : (s.record w).body with _ | b
  · rw [s.evaluate_free w hb]
    exact .refl s
  · obtain ⟨port, table, links, engine, monitor, -⟩ := s.evaluate_spec w b hb
    exact {
      unit := fun q => by rw [port]; exact Units.evaluated_sameWork _ _ _ q
      engine := engine
      reports := by rw [links]
      permission := by rw [monitor]
      view := by rw [table]
      reservation := fun q h => by unfold State.reservation at *; rwa [monitor]
      notice := fun h => by unfold State.toTable at *; rwa [links] at h }

theorem State.startOperation_leaves (w : WindowId) (b : WindowBody) : s.LeavesPorts (s.startOperation w b) :=
  (s.changeWindow_leaves w _).trans (State.sendToPorts_leaves _ _ _)

theorem State.subtract_leaves (w : WindowId) (e : Epoch) : s.LeavesPorts (s.subtract w e) :=
  (s.modifyCount_leaves w e _).trans (State.evaluate_leaves _ w)

theorem State.acknowledge_leaves (w : WindowId) (g : Generation) : s.LeavesPorts (s.acknowledge p w g) := by
  unfold State.acknowledge
  split
  · exact .refl s
  · split
    · exact (s.setBody_leaves w _).trans (State.evaluate_leaves _ w)
    · exact .refl s

theorem State.leaveSet_leaves (w : WindowId) : s.LeavesPorts (s.leaveSet p w) := by
  unfold State.leaveSet
  split
  · exact .refl s
  · split
    · exact (s.setBody_leaves w _).trans (State.evaluate_leaves _ w)
    · exact .refl s

theorem State.leaveSets_leaves : ∀ (ws : List WindowId) (s : State),
    s.LeavesPorts (ws.foldl (fun t w => t.leaveSet p w) s)
  | [], s => .refl s
  | w :: ws, s => (s.leaveSet_leaves p w).trans (State.leaveSets_leaves ws _)

theorem State.takeWalk_leaves (h : AccessHead) : s.LeavesPorts (s.takeWalk p h) := by
  have taken : s.LeavesPorts (s.walkTaken p) :=
    State.LeavesPorts.trans (t := ({ s with table := { s.table with
      walkOrder := moveToEnd p s.table.walkOrder } } : State).setWaitingWalk p none)
      (.of_frame rfl rfl rfl rfl rfl rfl) (State.settleWalk_leaves _ p)
  rw [State.takeWalk_eq]
  refine (taken.trans ?_).trans (State.sendToPort_leaves _ p _)
  unfold State.countAnswer
  split
  · exact State.modifyCount_leaves _ _ _ _
  · exact .refl _

end

end Sys2Proof.Machine
end

section
/-! The requests that the table takes, and the slot's words: they leave what the laws of the port states read. -/

namespace Sys2Proof.Machine

/-! ### Window requests (Section 3) -/

/-- A window request refused by its examination, or carried out (R49, R51). -/
theorem State.onTableRequest_leaves (s : State) (kind : RequestKind) {act : PortId → Captured → State → State}
    (h : ∀ p c t, State.LeavesPorts t (act p c t)) : s.LeavesPorts (s.onTableRequest kind act) := by
  unfold State.onTableRequest
  split
  · exact .refl s
  · split
    · rename_i p _ _ _
      have turned : s.LeavesPorts
          { s with table := { s.table with requestOrder := moveToEnd p s.table.requestOrder } } :=
        .of_frame rfl rfl rfl rfl rfl rfl
      exact (turned.trans (State.requestTaken_leaves _ p)).trans (h _ _ _)
    · exact .refl s

theorem State.windowRequest_leaves (s : State) (kind : RequestKind) {act : PortId → Captured → WindowId → State → State}
    (h : ∀ p c w t, State.LeavesPorts t (act p c w t)) :
    s.LeavesPorts (s.onTableRequest kind fun p c t => t.examineRequest kind p c (act p c)) := by
  refine s.onTableRequest_leaves kind fun p c t => ?_
  unfold State.examineRequest
  dsimp only
  split_ifs
  · exact t.postResult_leaves _ _ _
  · exact t.postResult_leaves _ _ _
  · split
    · exact t.postResult_leaves _ _ _
    · exact h _ _ _ _
  · exact t.postResult_leaves _ _ _

section
variable (s : State) (p : PortId) (c : Captured) (w : WindowId)

theorem State.takeDefine_leaves : s.LeavesPorts (s.takeDefine p c w) := by
  unfold State.takeDefine
  split
  · exact s.postResult_leaves _ _ _
  · exact ((s.changeWindow_leaves w _).trans (State.setLinkEpoch_leaves _ w _)).trans (State.postResult_leaves _ _ _ _)

theorem State.takeAmend_leaves : s.LeavesPorts (s.takeAmend p c w) := by
  unfold State.takeAmend
  dsimp only
  split
  · split
    · exact s.postResult_leaves _ _ _
    · exact ((s.changeWindow_leaves w _).trans (State.setLinkEpoch_leaves _ w _)).trans
        (State.postResult_leaves _ _ _ _)
  · exact s.postResult_leaves _ _ _

theorem State.takeEnable_leaves : s.LeavesPorts (s.takeEnable p c w) := by
  unfold State.takeEnable
  split
  · exact .refl s
  · split
    · exact ((s.changeWindow_leaves w _).trans (State.setLinkEpoch_leaves _ w _)).trans
        (State.postResult_leaves _ _ _ _)
    · exact s.postResult_leaves _ _ _

theorem State.takeHold_leaves : s.LeavesPorts (s.takeHold p c w) := by
  unfold State.takeHold
  split
  · exact .refl s
  · exact ((s.startOperation_leaves w _).trans (State.breakAndLink_leaves _ w _)).trans (State.evaluate_leaves _ w)

theorem State.postCancelled_leaves (op : Option PendingOp) : s.LeavesPorts (s.postCancelled w op) := by
  unfold State.postCancelled
  split
  · exact s.postResult_leaves _ _ _
  · exact .refl s

theorem State.takeReleaseRequest_leaves : s.LeavesPorts (s.takeReleaseRequest p c w) := by
  unfold State.takeReleaseRequest
  split
  · exact .refl s
  · split
    · exact s.postResult_leaves _ _ _
    · exact ((((s.changeWindow_leaves w _).trans (State.setLinkEpoch_leaves _ w _)).trans
        (State.sendToPorts_leaves _ _ _)).trans (State.postResult_leaves _ _ _ _)).trans
        (State.postCancelled_leaves _ w _)

theorem State.takeRetireRequest_leaves : s.LeavesPorts (s.takeRetireRequest p c w) := by
  have freed := (s.changeWindow_leaves w none).trans (State.breakAndLink_leaves _ w none)
  unfold State.takeRetireRequest
  split
  · exact .refl s
  · split
    · exact ((s.startOperation_leaves w _).trans (State.breakAndLink_leaves _ w _)).trans (State.evaluate_leaves _ w)
    · exact (freed.trans (State.sendToPorts_leaves _ _ _)).trans (State.postResult_leaves _ _ _ _)
    · exact freed.trans (State.postResult_leaves _ _ _ _)

theorem State.takeSetRights_leaves : s.LeavesPorts (s.takeSetRights p c w) := by
  unfold State.takeSetRights
  dsimp only
  split
  · split
    · exact s.postResult_leaves _ _ _
    · refine State.LeavesPorts.trans ?_ (State.evaluate_leaves _ w)
      split
      · exact (s.startOperation_leaves w _).trans (State.breakAndLink_leaves _ w _)
      · exact s.startOperation_leaves w _
  · exact s.postResult_leaves _ _ _

theorem State.takeQueryWindow_leaves : s.LeavesPorts (s.takeQueryWindow p c) := by
  unfold State.takeQueryWindow
  dsimp only
  split_ifs <;> exact s.postResult_leaves _ _ _

/-! ### The slot's words (R178 to R181) -/

theorem State.issue_leaves : s.LeavesPorts (s.issue p) := by
  unfold State.issue State.sendRequest
  dsimp only
  split
  · have captured := s.modifySlot_leaves p Slot.capturing
    split
    · exact captured.trans (State.postResult_leaves _ _ _ _)
    · split
      · exact captured.trans (State.modifySlot_leaves _ p _)
      · exact captured.trans (State.setRequest_leaves _ p _)
  · exact s.modifySlot_leaves p _

theorem State.writeSlot_leaves (word : SlotWord) (v : Word) : s.LeavesPorts (s.writeSlot p word v) := by
  cases word with
  | plain word => exact s.modifySlot_leaves p fun sl => sl.writePlain word v
  | issue => exact s.issue_leaves p
  | acknowledge => exact s.modifySlot_leaves p _

theorem State.accessSlot_leaves (a : Access) : s.LeavesPorts (s.accessSlot p a) := by
  unfold State.accessSlot
  split
  · exact s.answer_leaves p _
  · split
    · exact (s.writeSlot_leaves p _ _).trans (State.answer_leaves _ p _)
    · exact s.answer_leaves p _

end

end Sys2Proof.Machine
end

section
/-! The laws of the port states through the operations that reach them: changes of one unit, the quiesce condition, the
arbiter's choices, the posted-write store, and the ending of an access (R101, R112, R121, R127, R146, R167 to R174). -/

namespace Sys2Proof.Machine

/-! ### Keeping the laws -/

/-- From s to t the laws of the port states are kept, and of the ports in W none comes to meet its quiesce condition. A port
outside W has had its condition met, perhaps, and is still to be evaluated (R170). -/
structure State.KeepsPorts (W : PortId → Prop) (s t : State) : Prop where
  accounts : ∀ owed, s.Accounts owed → t.Accounts owed
  zero : s.PortZeroServes → t.PortZeroServes
  unmet : ∀ p, W p → (t.port p).QuiesceMet → (s.port p).QuiesceMet

section
variable {W : PortId → Prop}

theorem State.KeepsPorts.refl (s : State) : State.KeepsPorts W s s := ⟨fun _ => id, id, fun _ _ => id⟩

theorem State.KeepsPorts.trans {s t u : State} (h : State.KeepsPorts W s t) (k : State.KeepsPorts W t u) :
    State.KeepsPorts W s u :=
  ⟨fun owed => k.accounts owed ∘ h.accounts owed, k.zero ∘ h.zero, fun p hp => h.unmet p hp ∘ k.unmet p hp⟩

theorem State.storePorts_congr {s t : State} (h : t.engine = s.engine) : t.storePorts = s.storePorts :=
  congrArg (fun e : Engine => e.store.map StoreEntry.port) h

theorem State.LeavesPorts.keeps {s t : State} (h : s.LeavesPorts t) : State.KeepsPorts W s t where
  accounts := by
    rintro owed ⟨vacant, record, copy, closed⟩
    refine ⟨fun p hp => ?_, fun r => ?_, fun p => ?_, fun p hp => ?_⟩
    · exact (h.unit p).vacant (vacant p ((h.unit p).state.symm.trans hp))
    · rw [h.engine, State.storePorts_congr h.engine]
      exact record r
    · rw [(h.unit p).copy, State.storePorts_congr h.engine, h.reports]
      exact copy p
    · rw [(h.unit p).state] at hp
      obtain ⟨permission, reservation⟩ := closed p hp
      exact ⟨by rw [h.permission]; exact permission, h.reservation p reservation⟩
  zero := by
    rintro ⟨state, view, notice⟩
    refine ⟨?_, ?_, fun hm => notice (h.notice hm)⟩
    · rw [(h.unit 0).state]
      exact state
    · rw [h.view]
      exact view
  unmet p _ := (h.unit p).quiesceMet

/-! ### Changes of one unit -/

/-- What a change of a unit by itself may do: its port state stays, or is ACTIVE or FENCED before and after; its copy
stays; and where it was vacant and OFFLINE it is still vacant. -/
structure PortUnit.Evolves (u v : PortUnit) : Prop where
  state : v.state = u.state ∨
    ((u.state = .active ∨ u.state = .fenced) ∧ (v.state = .active ∨ v.state = .fenced))
  copy : v.occupancyCopy = u.occupancyCopy
  vacant : u.state = .offline → u.Vacant → v.Vacant

/-- An OFFLINE port has no access under way, so the change of an access under way is no change of one. -/
theorem PortUnit.Evolves.of_busy {u v : PortUnit} (busy : u.current ≠ .idle) (state : v.state = u.state)
    (copy : v.occupancyCopy = u.occupancyCopy) : u.Evolves v :=
  ⟨.inl state, copy, fun _ vacant => absurd vacant.2.1 busy⟩

theorem PortUnit.Evolves.of_active {u v : PortUnit} (active : u.state = .active) (state : v.state = u.state)
    (copy : v.occupancyCopy = u.occupancyCopy) : u.Evolves v :=
  ⟨.inl state, copy, fun offline => absurd (active.symm.trans offline) nofun⟩

section
variable {s : State} {p : PortId}

theorem State.modifyPort_accounts {f : PortUnit → PortUnit} {owed : PortId → Nat} (h : s.Accounts owed)
    (vacant : (f (s.port p)).state = .offline → (f (s.port p)).Vacant)
    (copy : (f (s.port p)).occupancyCopy = (s.port p).occupancyCopy)
    (closed : (f (s.port p)).state = .quiescing ∨ (f (s.port p)).state = .offline →
      s.monitor.permission.get p = false ∧ s.reservation p = none) : (s.modifyPort p f).Accounts owed := by
  refine ⟨fun q => ?_, h.record, fun q => ?_, fun q => ?_⟩ <;> rw [State.modifyPort_port_at] <;> split
  · exact vacant
  · exact h.vacant q
  · rename_i hq
    rw [copy, hq]
    exact h.copy p
  · exact h.copy q
  · rename_i hq
    exact hq ▸ closed
  · exact h.closed q

theorem State.modifyPort_portZeroServes {f : PortUnit → PortUnit} (h : s.PortZeroServes)
    (state : p = 0 → (f (s.port 0)).state = .active ∨ (f (s.port 0)).state = .fenced) :
    (s.modifyPort p f).PortZeroServes := by
  obtain ⟨serves, view, notice⟩ := h
  refine ⟨?_, view, notice⟩
  rw [State.modifyPort_port_at]
  split
  · rename_i hp
    exact hp ▸ state hp.symm
  · exact serves

theorem State.modifyPort_keepsPorts {f : PortUnit → PortUnit} (h : (s.port p).Evolves (f (s.port p)))
    (unmet : W p → (f (s.port p)).QuiesceMet → (s.port p).QuiesceMet) : State.KeepsPorts W s (s.modifyPort p f) where
  accounts owed hs := by
    have was : ∀ x, x = .quiescing ∨ x = .offline → (f (s.port p)).state = x → (s.port p).state = x := by
      intro x closed hx
      rcases h.state with same | ⟨-, serves⟩
      · exact same.symm.trans hx
      · rw [hx] at serves
        rcases closed with rfl | rfl <;> exact serves.elim nofun nofun
    refine State.modifyPort_accounts hs (fun offline => ?_) h.copy fun state => hs.closed p ?_
    · have offline := was .offline (.inr rfl) offline
      exact h.vacant offline (hs.vacant p offline)
    · exact state.imp (was .quiescing (.inl rfl)) (was .offline (.inr rfl))
  zero hs := by
    refine State.modifyPort_portZeroServes hs ?_
    rintro rfl
    exact h.state.elim (fun same => same ▸ hs.1) And.right
  unmet q hq := by
    rw [State.modifyPort_port_at]
    split
    · rename_i hqp
      subst hqp
      exact unmet hq
    · exact id

/-- The access under way at a port goes to another stage. -/
theorem State.setCurrent_keepsPorts {c : CurrentAccess} (busy : (s.port p).current ≠ .idle) (under : c ≠ .idle) :
    State.KeepsPorts W s (s.setCurrent p c) :=
  State.modifyPort_keepsPorts (.of_busy busy rfl rfl) fun _ met => absurd met.2.1 under

theorem PortUnit.Evolves.offered (u : PortUnit) (f : FaultInfo) : u.Evolves (u.offered f) := by
  refine ⟨?_, u.offered_occupancyCopy f, fun offline ⟨lookaside, idle, drained⟩ => ?_⟩
  · unfold PortUnit.offered
    split_ifs with _ fences
    · exact .inl rfl
    · exact .inr ⟨.inl fences.2, .inr rfl⟩
    · exact .inl rfl
  · exact ⟨(u.offered_lookaside f).trans lookaside, (u.offered_current f).trans idle,
      (u.offered_occupancyCopy f).trans drained⟩

/-- A fault completes no quiesce. -/
theorem PortUnit.QuiesceMet.of_offered {u : PortUnit} {f : FaultInfo} (h : (u.offered f).QuiesceMet) :
    u.QuiesceMet := by
  obtain ⟨state, idle, drained⟩ := h
  exact ⟨(u.offered_quiescing f).1 state, (u.offered_current f).symm.trans idle,
    (u.offered_occupancyCopy f).symm.trans drained⟩

theorem State.offerFault_keepsPorts (s : State) (p : PortId) (f : FaultInfo) :
    State.KeepsPorts W s (s.offerFault p f) := by
  refine State.modifyPort_keepsPorts ?_ fun _ met => ?_
  · rw [PortUnit.offerFault_eq]
    exact .offered _ f
  · rw [PortUnit.offerFault_eq] at met
    exact met.of_offered

theorem State.routeDeferred_keepsPorts (s : State) (e : StoreEntry) (f : FaultInfo) :
    State.KeepsPorts W s (s.routeDeferred e f) := by
  unfold State.routeDeferred
  split
  · exact s.offerFault_keepsPorts _ f
  · exact (s.offerDeviceFault_leaves _ f).keeps

end

/-! ### The quiesce condition (R170, R171) -/

/-- The unit as it enters OFFLINE, its slot apart. -/
def PortUnit.shut (u : PortUnit) : PortUnit := { u with state := .offline, lookaside := emptyLookaside }

theorem Units.wentOffline_sameWork (us : Units) (p : PortId) (b : Bool) (q : PortId) :
    (if q = p then (us p).shut else us q).SameWork (us.wentOffline p b q) := by
  have put : (if q = p then (us p).shut else us q).SameWork (us.put p ((us p).offlined b) q) := by
    unfold Units.put
    split
    · exact ⟨rfl, rfl, rfl, rfl⟩
    · exact .refl _
  unfold Units.wentOffline
  rcases (us p).offlineRequester with _ | ⟨x, n⟩
  · exact put
  · exact put.trans (Units.given_sameWork _ _ _ _ q)

section
variable {s : State} {p : PortId}

theorem State.enterOffline_sameWork (s : State) (p q : PortId) :
    (if q = p then (s.port p).shut else s.port q).SameWork ((s.enterOffline p).port q) := by
  rw [(s.enterOffline_spec p).2]
  exact Units.wentOffline_sameWork _ _ _ q

theorem State.enterOffline_accounts (met : (s.port p).QuiesceMet) {owed : PortId → Nat} (h : s.Accounts owed) :
    (s.enterOffline p).Accounts owed := by
  obtain ⟨quiescing, idle, drained⟩ := met
  have shut : (s.modifyPort p PortUnit.shut).Accounts owed :=
    State.modifyPort_accounts h (fun _ => ⟨rfl, idle, drained⟩) rfl fun _ => h.closed p (.inl quiescing)
  have same : ∀ q, ((s.modifyPort p PortUnit.shut).port q).SameWork ((s.enterOffline p).port q) := fun q => by
    rw [State.modifyPort_port_at]
    exact s.enterOffline_sameWork p q
  have engine : (s.enterOffline p).engine = s.engine := by simp
  refine ⟨fun q hq => ?_, fun r => ?_, fun q => ?_, fun q hq => ?_⟩
  · exact (same q).vacant (shut.vacant q ((same q).state.symm.trans hq))
  · rw [engine, State.storePorts_congr engine]
    exact h.record r
  · have reports : (s.enterOffline p).links.reports = s.links.reports := by simp
    rw [(same q).copy, State.storePorts_congr engine, reports]
    exact shut.copy q
  · have monitor : (s.enterOffline p).monitor = s.monitor := by simp
    rw [(same q).state] at hq
    unfold State.reservation
    rw [monitor]
    exact shut.closed q hq

/-- A port in QUIESCING is not I0, so neither is one that enters OFFLINE (R168). -/
theorem State.enterOffline_portZeroServes (met : (s.port p).QuiesceMet) (h : s.PortZeroServes) :
    (s.enterOffline p).PortZeroServes := by
  obtain ⟨serves, view, notice⟩ := h
  have other : (0 : PortId) ≠ p := by
    rintro rfl
    rw [met.1] at serves
    exact serves.elim nofun nofun
  have same := s.enterOffline_sameWork p 0
  rw [if_neg other] at same
  refine ⟨?_, ?_, ?_⟩
  · rw [same.state]
    exact serves
  · simpa using view
  · rw [((s.enterOffline_spec p).1.2 0 other).1]
    exact notice

/-- The evaluation of port p's condition leaves it not met, and the other ports as they were. -/
theorem State.evaluateQuiesce_unmet (s : State) (p q : PortId) (met : ((s.evaluateQuiesce p).port q).QuiesceMet) :
    q ≠ p ∧ (s.port q).QuiesceMet := by
  unfold State.evaluateQuiesce at met
  split at met
  · have was := (s.enterOffline_sameWork p q).quiesceMet met
    split at was
    · exact absurd was.1 nofun
    · exact ⟨by assumption, was⟩
  · rename_i unmet
    refine ⟨?_, met⟩
    rintro rfl
    exact unmet ((PortUnit.quiesced_iff _).2 met)

/-- Whatever port p's change left to evaluate is evaluated. -/
theorem State.KeepsPorts.evaluated {t : State} (h : State.KeepsPorts (fun q => W q ∧ q ≠ p) s t) :
    State.KeepsPorts W s (t.evaluateQuiesce p) where
  accounts owed hs := by
    unfold State.evaluateQuiesce
    split
    · rename_i met
      exact State.enterOffline_accounts ((PortUnit.quiesced_iff _).1 met) (h.accounts owed hs)
    · exact h.accounts owed hs
  zero hs := by
    unfold State.evaluateQuiesce
    split
    · rename_i met
      exact State.enterOffline_portZeroServes ((PortUnit.quiesced_iff _).1 met) (h.zero hs)
    · exact h.zero hs
  unmet q hq met := by
    obtain ⟨other, met⟩ := t.evaluateQuiesce_unmet p q met
    exact h.unmet q ⟨hq, other⟩ met

theorem PortUnit.Evolves.answeredWith (u : PortUnit) (a : Answer) (f : Option FaultInfo) :
    u.Evolves (u.answeredWith a f) := by
  have answered : u.Evolves (u.answered a) := ⟨.inl rfl, rfl, fun _ ⟨lookaside, _, drained⟩ => ⟨lookaside, rfl, drained⟩⟩
  cases f with
  | none => exact answered
  | some f =>
    have fault := PortUnit.Evolves.offered (u.answered a) f
    exact ⟨fault.state, fault.copy, fun offline vacant => fault.vacant offline (answered.vacant offline vacant)⟩

/-- An access ends, and the condition that this may meet is evaluated in the event (R112, R170). -/
theorem State.endCurrent_keepsPorts (s : State) (p : PortId) (a : Answer) (f : Option FaultInfo) :
    State.KeepsPorts W s (s.endCurrent p a f) := by
  rw [State.endCurrent_eq]
  exact (State.modifyPort_keepsPorts (.answeredWith _ a f) fun hp => absurd rfl hp.2).evaluated

end

end

end Sys2Proof.Machine
end

section
/-! The laws of the port states through the engine: the arbiter's choices, the posted-write store, and the ending of an
access or entry (R101, R111 to R114, R119 to R129, R137). -/

namespace Sys2Proof.Machine

/-! ### The engine and its record -/

/-- Port p has an entry in the store, or the record on the bus is of one, which the law takes for the same (R126). -/
def State.ShowsEntry (s : State) (p : PortId) : Prop :=
  p ∈ s.storePorts ∨ ∃ r, s.engine.access = some r ∧ r.fromStore = true ∧ r.origin = p

theorem State.ShowsEntry.mem {s : State} {p : PortId} {owed : PortId → Nat} (h : s.ShowsEntry p)
    (hs : s.Accounts owed) : p ∈ s.storePorts := by
  rcases h with mem | ⟨r, access, fromStore, rfl⟩
  · exact mem
  · exact hs.record r access fromStore

theorem State.ShowsEntry.congr {s t : State} {p : PortId} (h : s.ShowsEntry p) (he : t.engine = s.engine) :
    t.ShowsEntry p := by
  unfold State.ShowsEntry
  rw [State.storePorts_congr he, he]
  exact h

section
variable {W : PortId → Prop}

theorem State.modifyEngine_keepsPorts {s : State} {f : Engine → Engine}
    (store : (s.modifyEngine f).storePorts = s.storePorts)
    (record : ∀ r, (f s.engine).access = some r → r.fromStore = true → s.ShowsEntry r.origin) :
    State.KeepsPorts W s (s.modifyEngine f) where
  accounts owed hs := by
    refine ⟨hs.vacant, fun r hr fromStore => ?_, fun p => ?_, hs.closed⟩
    · rw [store]
      exact (record r hr fromStore).mem hs
    · rw [store]
      exact hs.copy p
  zero := id
  unmet _ _ := id

/-- A change of the engine that keeps its record and its store. -/
theorem State.modifyEngine_keepsPorts_of_record {s : State} {f : Engine → Engine}
    (store : (f s.engine).store = s.engine.store) (access : (f s.engine).access = s.engine.access) :
    State.KeepsPorts W s (s.modifyEngine f) :=
  State.modifyEngine_keepsPorts (congrArg (List.map StoreEntry.port) store)
    fun r hr fromStore => .inr ⟨r, access ▸ hr, fromStore, rfl⟩

/-- A change of the engine that drops its record and keeps its store. -/
theorem State.modifyEngine_keepsPorts_of_none {s : State} {f : Engine → Engine}
    (store : (f s.engine).store = s.engine.store) (access : (f s.engine).access = none) :
    State.KeepsPorts W s (s.modifyEngine f) :=
  State.modifyEngine_keepsPorts (congrArg (List.map StoreEntry.port) store)
    fun r hr => by rw [access] at hr; cases hr

section
variable (s : State)

theorem State.presentPart_keepsPorts : State.KeepsPorts W s s.presentPart :=
  State.modifyEngine_keepsPorts_of_record rfl rfl

theorem State.startPart_keepsPorts : State.KeepsPorts W s s.startPart := by
  refine State.KeepsPorts.trans (State.modifyEngine_keepsPorts rfl fun r hr fromStore => ?_)
    (State.presentPart_keepsPorts _)
  obtain ⟨r0, access, rfl⟩ := Option.map_eq_some_iff.1 hr
  exact .inr ⟨r0, access, fromStore, rfl⟩

theorem State.seizeBus_keepsPorts (p : PortId) (r : BusAccess) (h : r.fromStore = true → s.ShowsEntry r.origin) :
    State.KeepsPorts W s (s.seizeBus p r) :=
  State.modifyEngine_keepsPorts rfl fun _ hr => Option.some.inj hr ▸ h

theorem State.finishAccess_keepsPorts (r : BusAccess) (a : Answer) (f : Option FaultInfo) :
    State.KeepsPorts W s (s.finishAccess r a f) :=
  ((s.endCurrent_keepsPorts r.origin a f).trans (State.engineSubtract_leaves _ _ _).keeps).trans
    (State.modifyEngine_keepsPorts_of_none rfl rfl)

/-! ### The arbiter's choices (R98, R101, R113) -/

theorem State.examine_keepsPorts (r : BusAccess) {start : State → State}
    (h : ∀ t, State.KeepsPorts W t (start t)) : State.KeepsPorts W s (s.examine r start).state := by
  rcases s.examine_cases r start with ⟨-, -, e⟩ | ⟨-, -, e⟩ | ⟨-, e⟩ <;> rw [e]
  · exact (s.setReservation_leaves r.origin).keeps.trans (h _)
  · exact s.finishAccess_keepsPorts r _ _
  · exact h s

/-- The entry that a port offers is in the store (R95). -/
theorem State.candidate_entry {s : State} {p : PortId} {e : StoreEntry} (h : s.candidate p = some (.entry e)) :
    e ∈ s.engine.store := by
  unfold State.candidate at h
  split at h
  · rename_i oldest
    cases h
    exact List.mem_of_find?_eq_some oldest
  · split at h
    · split at h <;> cases h
    · split at h
      · split at h <;> cases h
      · cases h
    · cases h

theorem State.grant_keepsPorts (p : PortId) : State.KeepsPorts W s (s.grant p).state := by
  unfold State.grant
  split
  · rename_i r access
    exact (s.seizeBus_keepsPorts p r fun fromStore => .inr ⟨r, access, fromStore, rfl⟩).trans
      (State.examine_keepsPorts _ r State.presentPart_keepsPorts)
  · split
    · rename_i e candidate
      have entry : e.port ∈ s.storePorts := List.mem_map_of_mem (State.candidate_entry candidate)
      exact (s.seizeBus_keepsPorts p _ fun _ => .inl entry).trans
        (State.examine_keepsPorts _ _ State.startPart_keepsPorts)
    · rename_i a adm candidate
      have offers := (State.candidate_access candidate).1
      have seized : State.KeepsPorts W s (s.seizeBus p (accessRecord p a adm)) := s.seizeBus_keepsPorts p _ nofun
      have busy : ((s.seizeBus p (accessRecord p a adm)).port p).current ≠ .idle := fun idle =>
        absurd (offers.symm.trans idle) nofun
      have granted := State.setCurrent_keepsPorts (W := W) (c := .onBus a adm) busy nofun
      exact (seized.trans granted).trans
        (State.examine_keepsPorts _ _ State.startPart_keepsPorts)
    · exact .refl s

theorem State.choose_keepsPorts : State.KeepsPorts W s s.choose :=
  State.choose_induction (P := fun t => State.KeepsPorts W s t)
    (fun _ h => h.trans (State.modifyEngine_keepsPorts_of_record rfl rfl))
    (fun t p _ h => h.trans (t.grant_keepsPorts p)) s (.refl s)

/-! ### The posted-write store (R119 to R123, R127) -/

/-- An accepted write is an access under way, so its port is not OFFLINE; its copy rises with the store (R121, R127). -/
theorem State.accept_keepsPorts {p : PortId} (busy : (s.port p).current ≠ .idle) (a : Access) (adm : Admission) :
    State.KeepsPorts W s (s.accept p a adm) := by
  rw [State.accept_eq]
  refine ⟨fun owed hs => ⟨fun q => ?_, fun r hr fromStore => ?_, fun q => ?_, fun q => ?_⟩, fun hs => ?_, fun q _ => ?_⟩
  · rw [State.modifyPort_port_at]
    split
    · exact fun offline => absurd (hs.vacant p offline).2.1 busy
    · exact hs.vacant q
  · have entry := hs.record r hr fromStore
    simp only [State.storePorts, State.modifyPort_engine, State.modifyEngine_engine, List.map_append]
    exact List.mem_append_left _ entry
  · have counted := hs.copy q
    have joined : (s.storePorts ++ [p]).count q = s.storePorts.count q + if q = p then 1 else 0 := by
      by_cases hq : q = p
      · simp [hq]
      · simp [hq, Ne.symm hq]
    have ports : ((s.modifyEngine fun g => { g with
        store := g.store ++ [entryOf p (s.port p).epoch a adm] })).storePorts = s.storePorts ++ [p] := by
      simp [State.storePorts, entryOf]
    rw [State.modifyPort_port_at, State.storePorts_congr (State.modifyPort_engine _ _ _), ports, joined]
    split
    · rename_i hq
      subst hq
      simp only [State.modifyEngine_port_at, State.modifyPort_links, State.modifyEngine_links]
      omega
    · exact counted
  · rw [State.modifyPort_port_at]
    split
    · rename_i hq
      exact hq ▸ hs.closed p
    · exact hs.closed q
  · exact State.modifyPort_portZeroServes (s := s.modifyEngine _) hs fun hp => hp ▸ hs.1
  · rw [State.modifyPort_port_at]
    split
    · exact fun met => absurd met.2.2 (Nat.succ_ne_zero _)
    · exact id

theorem State.waitingWrite_busy {s : State} {p : PortId} {x : Access × Admission} (h : s.waitingWrite p = some x) :
    (s.port p).current ≠ .idle := by
  intro idle
  rw [State.waitingWrite, idle] at h
  cases h

theorem State.admitWaiter_keepsPorts : State.KeepsPorts W s s.admitWaiter := by
  unfold State.admitWaiter
  split
  · exact .refl s
  · rename_i p _
    split
    · exact .refl s
    · rename_i write
      let left := s.modifyEngine fun g => { g with waitingList := removePort p g.waitingList }
      have leaves : State.KeepsPorts W s left := State.modifyEngine_keepsPorts_of_record rfl rfl
      have busy : (left.port p).current ≠ .idle := State.waitingWrite_busy write
      exact leaves.trans (left.accept_keepsPorts busy _ _)

theorem State.offer_keepsPorts {p : PortId} (busy : (s.port p).current ≠ .idle) (a : Access) (adm : Admission) :
    State.KeepsPorts W s (s.offer p a adm) := by
  have waits : State.KeepsPorts W s (s.setCurrent p (.waiting a adm true)) := State.setCurrent_keepsPorts busy nofun
  unfold State.offer
  split
  · split
    · exact (s.accept_keepsPorts busy a adm).trans (State.choose_keepsPorts _)
    · exact waits.trans (State.modifyEngine_keepsPorts_of_record rfl rfl)
  · exact waits.trans (State.choose_keepsPorts _)

/-- Port p's oldest entry and the record have left the engine (R127). -/
def State.withoutOldest (s : State) (p : PortId) : State :=
  s.modifyEngine fun g => ({ g with store := removeOldest p g.store } : Engine).dropAccess

/-- An entry that leaves the store is owed to its port's copy until its report is sent (R127). -/
theorem State.withoutOldest_accounts {s : State} {p : PortId} {owed : PortId → Nat} (h : s.Accounts owed)
    (entry : p ∈ s.storePorts) : (s.withoutOldest p).Accounts fun q => owed q + if q = p then 1 else 0 := by
  have removed : (s.withoutOldest p).storePorts = s.storePorts.erase p := by
    unfold State.storePorts
    rw [List.erase_eq_eraseP', List.eraseP_map]
    rfl
  refine ⟨h.vacant, fun r hr => absurd hr nofun, fun q => ?_, h.closed⟩
  have counted := h.copy q
  rw [removed]
  by_cases hq : q = p
  · subst hq
    have present := List.count_pos_iff.2 entry
    rw [List.count_erase_self, if_pos rfl]
    change (s.port q).occupancyCopy = s.storePorts.count q - 1 + s.links.reports.get q + (owed q + 1)
    omega
  · rw [List.count_erase_of_ne hq, if_neg hq]
    exact counted

theorem State.entryReported_accounts {s : State} {r : BusAccess} {owed : PortId → Nat}
    (h : s.Accounts fun q => owed q + if q = r.origin then 1 else 0) : (s.entryReported r).Accounts owed := by
  refine ⟨h.vacant, h.record, fun q => ?_, h.closed⟩
  have counted := h.copy q
  change (s.port q).occupancyCopy = s.storePorts.count q +
    (vput s.links.reports r.origin (s.links.reports.get r.origin + 1)).get q + owed q
  rw [vput_get]
  split at counted
  · rename_i hq
    subst hq
    rw [if_pos rfl]
    omega
  · rw [if_neg (by assumption)]
    exact counted

theorem State.finishEntry_keepsPorts {r : BusAccess} (h : s.ShowsEntry r.origin) :
    State.KeepsPorts W s (s.finishEntry r) := by
  have chosen : State.KeepsPorts W (s.withoutOldest r.origin) (s.withoutOldest r.origin).choose :=
    State.choose_keepsPorts _
  have rest : ∀ t : State, State.KeepsPorts W t t.admitWaiter.choose := fun t =>
    t.admitWaiter_keepsPorts.trans (State.choose_keepsPorts _)
  exact {
    accounts := fun owed hs => (rest _).accounts owed
      (State.entryReported_accounts (chosen.accounts _ (State.withoutOldest_accounts hs (h.mem hs))))
    zero := fun hs => (rest _).zero (chosen.zero hs)
    unmet := fun p hp => chosen.unmet p hp ∘ (rest _).unmet p hp }

/-! ### The ending of a part (R106 to R114, R137) -/

theorem State.endAbandoned_keepsPorts (r : BusAccess) : State.KeepsPorts W s (s.endAbandoned r) :=
  ((s.engineSubtract_leaves _ _).keeps.trans (State.modifyEngine_keepsPorts_of_none rfl rfl)).trans
    (State.choose_keepsPorts _)

/-- A linked read sets no reservation for a port whose permission flag is NO (R137, R146). -/
theorem State.reportLinkedRead_keepsPorts (p : PortId) (a : SysAddr) (w : WindowId) (e : Epoch) :
    State.KeepsPorts W s (s.reportLinkedRead p a w e) := by
  unfold State.reportLinkedRead
  split
  · rename_i set
    rw [Bool.and_eq_true] at set
    refine ⟨fun owed hs => ⟨hs.vacant, hs.record, hs.copy, fun q hq => ?_⟩, id, fun _ _ => id⟩
    obtain ⟨permission, reservation⟩ := hs.closed q hq
    refine ⟨permission, ?_⟩
    rw [State.setReservation_reservation_at]
    split
    · rename_i hqp
      exact absurd ((hqp ▸ set.1).symm.trans permission) nofun
    · exact reservation
  · exact .refl s

theorem State.finished_keepsPorts (r : BusAccess) (a : Answer) (f : Option FaultInfo) :
    State.KeepsPorts W s (s.finishAccess r a f).choose :=
  (s.finishAccess_keepsPorts r a f).trans (State.choose_keepsPorts _)

section
variable {s} {r : BusAccess} (h : r.fromStore = true → s.ShowsEntry r.origin)
include h

theorem State.failAccess_keepsPorts (k : FaultKind) : State.KeepsPorts W s (s.failAccess r k) := by
  unfold State.failAccess
  split
  · rename_i fromStore
    split
    · exact s.finishEntry_keepsPorts (h fromStore)
    · exact (s.routeDeferred_keepsPorts _ _).trans
        (State.finishEntry_keepsPorts _ ((h fromStore).congr (State.bus_engine (s.routeDeferred_bus _ _))))
  · split <;> exact s.finished_keepsPorts r _ _

theorem State.completeAccess_keepsPorts : State.KeepsPorts W s (s.completeAccess r) := by
  unfold State.completeAccess
  split
  · rename_i fromStore
    exact s.finishEntry_keepsPorts (h fromStore)
  · split
    · exact s.finished_keepsPorts r _ _
    · dsimp only
      split
      · exact (s.reportLinkedRead_keepsPorts _ _ _ _).trans (State.finished_keepsPorts _ r _ _)
      · exact s.finished_keepsPorts r _ _

omit h in
theorem State.keepAccess_storePorts (s : State) (r : BusAccess) : (s.keepAccess r).storePorts = s.storePorts := by
  unfold State.storePorts State.keepAccess State.modifyEngine
  dsimp only
  split
  · rw [modifyOldest_ports (f := fun e => { e with partsDone := r.partsDone }) fun _ => rfl]
  · rfl

theorem State.partCompleted_keepsPorts : State.KeepsPorts W s (s.partCompleted r) := by
  have kept : State.KeepsPorts W s (s.keepAccess r) :=
    State.modifyEngine_keepsPorts (s.keepAccess_storePorts r) fun _ hr => Option.some.inj hr ▸ h
  unfold State.partCompleted
  split
  · exact kept.trans (State.startPart_keepsPorts _)
  · exact kept.trans (State.completeAccess_keepsPorts fun fromStore => .inr ⟨r, rfl, fromStore, rfl⟩)

theorem State.retryPart_keepsPorts : State.KeepsPorts W s (s.retryPart r) := by
  unfold State.retryPart
  dsimp only
  split
  · refine State.KeepsPorts.trans (State.modifyEngine_keepsPorts rfl fun r' hr => ?_) (State.choose_keepsPorts _)
    rw [← Option.some.inj hr]
    exact h
  · exact State.failAccess_keepsPorts (r := { r with retryCount := r.retryCount + 1 }) h _

end

end

end

end Sys2Proof.Machine
end

section
/-! The laws of the port states through every command, and through a tick of the timebase. -/

namespace Sys2Proof.Machine

section
variable {W : PortId → Prop} (s : State) (p : PortId)

/-! ### Arrivals -/

theorem State.failMatch_keepsPorts (h : AccessHead) (k : FaultKind) (w : Option WindowId) :
    State.KeepsPorts W s (s.failMatch p h k w) :=
  s.endCurrent_keepsPorts p _ _

/-- The walk of an access that is under way, or that an ACTIVE port takes (R33, R42). -/
theorem State.startWalk_keepsPorts (a : Access) (h : ∀ c, (s.port p).Evolves { s.port p with current := c }) :
    State.KeepsPorts W s (s.startWalk p a) := by
  have walks : ∀ sent, State.KeepsPorts W s (s.setCurrent p (.walking a sent)) := fun _ =>
    State.modifyPort_keepsPorts (h _) fun _ met => absurd met.2.1 nofun
  unfold State.startWalk
  split
  · exact walks false
  · exact (walks true).trans (State.sendToTable_leaves _ p (.walk a.toAccessHead) fun _ => nofun).keeps

theorem State.hitEntry_keepsPorts (a : Access) (i : Fin 4) (c : Copy) (active : (s.port p).state = .active) :
    State.KeepsPorts W s (s.hitEntry p a i c) := by
  have touched : State.KeepsPorts W s (s.setLookaside p ((s.port p).lookaside.touch i)) :=
    State.modifyPort_keepsPorts (.of_active active rfl rfl) fun _ => id
  have active : ((s.setLookaside p ((s.port p).lookaside.touch i)).port p).state = .active := by simpa using active
  unfold State.hitEntry
  dsimp only
  split
  · exact touched.trans (State.failMatch_keepsPorts _ p _ _ _)
  · have admitted := State.modifyPort_keepsPorts (W := W)
      (f := fun u => { u with current := .waiting a (c.admission a.toAccessHead) false })
      (.of_active active rfl rfl) fun _ met => absurd met.2.1 nofun
    exact (touched.trans admitted).trans ((State.dropForLinkedRead_leaves _ p _).trans
      (State.sendToTable_leaves _ p (.addition c.window c.epoch) fun _ => nofun)).keeps

theorem State.checkArrival_keepsPorts (a : Access) (active : (s.port p).state = .active) :
    State.KeepsPorts W s (s.checkArrival p a) := by
  unfold State.checkArrival State.lookUp
  split
  · exact s.failMatch_keepsPorts p _ _ _
  · split
    · split
      · exact (s.answer_leaves p _).keeps
      · exact (s.accessSlot_leaves p a).keeps
    · split
      · exact s.hitEntry_keepsPorts p a _ _ active
      · exact s.startWalk_keepsPorts p a fun _ => .of_active active rfl rfl

theorem State.arrive_keepsPorts (a : Access) : State.KeepsPorts W s (s.arrive p a) := by
  have refused := (s.answer_leaves p .error).keeps (W := W)
  have slot := (s.accessSlot_leaves p a).keeps (W := W)
  unfold State.arrive
  split
  · exact refused
  · split
    · exact refused
    · split
      · exact slot
      · exact refused
    · split
      · exact slot
      · exact refused
    · rename_i active
      exact s.checkArrival_keepsPorts p a active

theorem State.presentAccess_keepsPorts (a : Access) : State.KeepsPorts W s (s.presentAccess p a) := by
  unfold State.presentAccess
  split
  · exact (s.modifyPort_leaves p (fun u => { u with answer := none }) ⟨rfl, rfl, rfl, rfl⟩).keeps.trans
      (State.arrive_keepsPorts _ p a)
  · exact .refl s

/-! ### What the ports take from the table -/

theorem State.discardAnswer_keepsPorts : State.KeepsPorts W s (s.discardAnswer p) := by
  have cleared := (s.setStaleWalk_leaves p false).keeps (W := W)
  unfold State.discardAnswer
  dsimp only
  split
  · rename_i a walks
    have busy : ((s.setStaleWalk p false).port p).current ≠ .idle := by
      simp [walks]
    exact (cleared.trans (State.setCurrent_keepsPorts (c := .walking a true) busy nofun)).trans
      (State.sendToTable_leaves _ p (.walk a.toAccessHead) fun _ => nofun).keeps
  · exact cleared

/-- A copy is installed for an access under way, whose port is not OFFLINE (R35). -/
theorem State.setLookaside_keepsPorts (l : Lookaside) (busy : (s.port p).current ≠ .idle) :
    State.KeepsPorts W s (s.setLookaside p l) :=
  State.modifyPort_keepsPorts (.of_busy busy rfl rfl) fun _ => id

theorem State.takeAdmitted_keepsPorts (c : Copy) : State.KeepsPorts W s (s.takeAdmitted p c) := by
  unfold State.takeAdmitted
  split
  · exact (s.discardAnswer_keepsPorts p).trans
      (State.sendToTable_leaves _ p (.subtraction c.window c.epoch) fun _ => nofun).keeps
  · split
    · rename_i a walks
      have busy : (s.port p).current ≠ .idle := by simp [walks]
      let installed := s.setLookaside p ((s.port p).lookaside.install c)
      let waits := installed.setCurrent p (.waiting a (c.admission a.toAccessHead) false)
      have installs : State.KeepsPorts W s installed := s.setLookaside_keepsPorts p _ busy
      have admits : State.KeepsPorts W installed waits :=
        State.setCurrent_keepsPorts (by simpa [installed] using busy) nofun
      have offered : ((waits.dropForLinkedRead p a.toAccessHead).port p).current ≠ .idle := by
        have same : (waits.dropForLinkedRead p a.toAccessHead).port = waits.port := State.port_congr (by simp)
        rw [same]
        simp [waits]
      exact ((installs.trans admits).trans (State.dropForLinkedRead_leaves _ p _).keeps).trans
        (State.offer_keepsPorts _ offered _ _)
    · exact .refl s

theorem State.takeDenied_keepsPorts (c : Copy) (k : FaultKind) : State.KeepsPorts W s (s.takeDenied p c k) := by
  unfold State.takeDenied
  split
  · exact s.discardAnswer_keepsPorts p
  · split
    · rename_i a walks
      exact (s.setLookaside_keepsPorts p _ (by simp [walks])).trans (State.failMatch_keepsPorts _ p _ _ _)
    · exact .refl s

theorem State.takeNoWindow_keepsPorts : State.KeepsPorts W s (s.takeNoWindow p) := by
  unfold State.takeNoWindow
  split
  · exact s.discardAnswer_keepsPorts p
  · split
    · exact s.failMatch_keepsPorts p _ _ _
    · exact .refl s

theorem State.takePark_keepsPorts (w : WindowId) : State.KeepsPorts W s (s.takePark p w) := by
  unfold State.takePark
  split
  · exact s.discardAnswer_keepsPorts p
  · split
    · rename_i a walks
      exact State.setCurrent_keepsPorts (by simp [walks]) nofun
    · exact .refl s

theorem State.takeRelease_keepsPorts (w : WindowId) : State.KeepsPorts W s (s.takeRelease p w) := by
  unfold State.takeRelease
  split
  · rename_i a _ _ parked
    split
    · exact s.startWalk_keepsPorts p a fun _ => .of_busy (by simp [parked]) rfl rfl
    · exact .refl s
  · exact .refl s

theorem State.takeRetire_keepsPorts (w : WindowId) : State.KeepsPorts W s (s.takeRetire p w) := by
  unfold State.takeRetire
  split
  · split
    · exact s.endCurrent_keepsPorts p _ _
    · exact .refl s
  · exact .refl s

theorem State.offerAdded_keepsPorts : State.KeepsPorts W s (s.offerAdded p) := by
  unfold State.offerAdded
  split
  · rename_i waits
    exact s.offer_keepsPorts (by simp [waits]) _ _
  · exact .refl s

/-- A lookaside without entries has none to invalidate (R36). -/
theorem emptyLookaside_invalidate (w : WindowId) : emptyLookaside.invalidate w = emptyLookaside := by
  have entries : vmap (fun e => Option.filter (fun c : Copy => c.window != w) e) emptyLookaside.entries =
      emptyLookaside.entries := vector_ext_get fun i => by simp [emptyLookaside]
  simp only [Lookaside.invalidate, entries]
  rfl

theorem State.invalidate_keepsPorts (w : WindowId) :
    State.KeepsPorts W s (s.setLookaside p ((s.port p).lookaside.invalidate w)) := by
  refine State.modifyPort_keepsPorts ⟨.inl rfl, rfl, fun _ ⟨lookaside, idle, drained⟩ => ⟨?_, idle, drained⟩⟩
    fun _ => id
  rw [lookaside]
  exact emptyLookaside_invalidate w

/-! ### Notices of the port states (R81, R82) -/

theorem State.setView_accounts {s : State} {p : PortId} {b : Bool} {owed : PortId → Nat} (h : s.Accounts owed) :
    (s.setView p b).Accounts owed :=
  ⟨h.vacant, h.record, h.copy, h.closed⟩

/-- The view of I0 stays, as no offline notice of it is under way. -/
theorem State.setView_keepsPorts (b : Bool) (h : s.PortZeroServes → b = true → p ≠ 0) :
    State.KeepsPorts W s (s.setView p b) := by
  refine ⟨fun _ => State.setView_accounts, fun hs => ⟨hs.1, ?_, hs.2.2⟩, fun _ _ => id⟩
  change (vput s.table.offlineView p b).get 0 = false
  rw [vput_get]
  split
  · rename_i zero
    rcases b with _ | _
    · rfl
    · exact absurd zero.symm (h hs rfl)
  · exact hs.2.1

theorem execOfflineNotice_keepsPorts {s t : State} {p : PortId} (h : execOfflineNotice p s = .next t) :
    State.KeepsPorts W s t := by
  cases h
  split
  · rename_i rest first
    have taken : s.LeavesPorts (s.takeFromPort p rest) := s.takeFromPort_leaves p first
    refine State.KeepsPorts.trans ⟨fun owed hs => State.setView_accounts ((taken.keeps (W := W)).accounts owed hs),
      fun hs => ?_,
      (taken.keeps (W := W)).unmet⟩ (State.leaveSets_leaves p _ _).keeps
    refine (State.setView_keepsPorts (W := W) (s.takeFromPort p rest) p true fun _ _ zero => ?_).zero
      (taken.keeps (W := W).zero hs)
    exact hs.2.2 (zero ▸ first ▸ List.mem_cons_self ..)
  · exact .refl s

/-! ### Requests to ports (9.2, 9.3, 8.4) -/

theorem State.reply_leaves (c : Captured) (code : ResultCode) : s.LeavesPorts (s.reply p c code) :=
  s.postResult_leaves p _ _

theorem State.onRequest_keepsPorts (kind : RequestKind) {act : Captured → State → State}
    (h : ∀ c t, State.KeepsPorts W t (act c t)) : State.KeepsPorts W s (s.onRequest kind p act) := by
  unfold State.onRequest
  split
  · exact .refl s
  · split
    · exact (s.requestTaken_leaves p).keeps.trans (h _ _)
    · exact .refl s

theorem State.onPortRequest_keepsPorts (kind : RequestKind) {act : PortId → Captured → State → State}
    (h : ∀ q c t, State.KeepsPorts W t (act q c t)) : State.KeepsPorts W s (s.onPortRequest kind p act) :=
  s.onRequest_keepsPorts p kind fun c t => by
    split
    · exact h _ _ _
    · exact (t.postResult_leaves p _ _).keeps

/-- A permission flag is YES only at a port that is neither QUIESCING nor OFFLINE (R146). -/
theorem State.setPermission_keepsPorts (b : Bool)
    (h : b = true → (s.port p).state ≠ .quiescing ∧ (s.port p).state ≠ .offline) :
    State.KeepsPorts W s (s.setPermission p b) := by
  refine ⟨fun owed hs => ⟨hs.vacant, hs.record, hs.copy, fun q hq => ?_⟩, id, fun _ _ => id⟩
  obtain ⟨permission, reservation⟩ := hs.closed q hq
  refine ⟨?_, reservation⟩
  rw [State.setPermission_monitor_permission, vput_get]
  split
  · rename_i hqp
    rcases b with _ | _
    · rfl
    · obtain ⟨quiescing, offline⟩ := h rfl
      exact (hq.elim (hqp ▸ quiescing) (hqp ▸ offline)).elim
  · exact permission

/-- The port becomes ACTIVE, whatever it was (R167). -/
theorem State.activate_keepsPorts : State.KeepsPorts W s (s.modifyPort p fun u => { u with state := .active }) where
  accounts _ hs := State.modifyPort_accounts hs nofun rfl fun h => h.elim nofun nofun
  zero hs := State.modifyPort_portZeroServes hs fun _ => .inl rfl
  unmet q _ met := by
    rw [State.modifyPort_port_at] at met
    split at met
    · exact absurd met.1 nofun
    · exact met

variable (c : Captured)

theorem State.takeOnline_keepsPorts (i : PortId) : State.KeepsPorts W s (s.takeOnline i p c) := by
  unfold State.takeOnline
  split_ifs
  · exact (s.reply_leaves _ _ _).keeps
  · exact (s.reply_leaves _ _ _).keeps
  · have sent := (s.activate_keepsPorts p (W := W)).trans
      (State.sendToTable_leaves _ p .onlineNotice fun _ => nofun).keeps
    refine (sent.trans (State.setPermission_keepsPorts _ p true fun _ => ?_)).trans (State.reply_leaves _ _ _ _).keeps
    simp [State.port_congr (State.sendToTable_frame _ p .onlineNotice).1]

/-- The port becomes QUIESCING, with its reservation broken and its permission flag NO already (R146, R169); its quiesce
condition is still to be evaluated. -/
theorem State.quiesce_keepsPorts (i : PortId) (notZero : p ≠ 0) : State.KeepsPorts (fun q => W q ∧ q ≠ p) s
    (((s.setReservation p none).setPermission p false).modifyPort p fun u =>
      { u with state := .quiescing, offlineRequester := some (i, c.number) }) := by
  have closed : State.KeepsPorts W s ((s.setReservation p none).setPermission p false) :=
    (s.setReservation_leaves p).keeps.trans (State.setPermission_keepsPorts _ p false nofun)
  refine ⟨fun owed hs => State.modifyPort_accounts (closed.accounts owed hs) nofun rfl fun _ => ?_, fun hs => ?_,
    fun q hq met => ?_⟩
  · simp
  · exact State.modifyPort_portZeroServes (closed.zero hs) fun h => absurd h notZero
  · rw [State.modifyPort_port_at, if_neg hq.2] at met
    exact met

theorem State.takeOffline_keepsPorts (i : PortId) : State.KeepsPorts W s (s.takeOffline i p c) := by
  unfold State.takeOffline
  split_ifs with _ _ zero
  · exact (s.reply_leaves _ _ _).keeps
  · exact (s.reply_leaves _ _ _).keeps
  · exact (s.reply_leaves _ _ _).keeps
  · exact (s.quiesce_keepsPorts p c i (by simpa using zero)).evaluated
  · exact (s.reply_leaves _ _ _).keeps

/-- The port becomes ACTIVE or FENCED, having been one of the two (R157, R158). -/
theorem State.serve_keepsPorts (x : PortState) (was : (s.port p).state = .active ∨ (s.port p).state = .fenced)
    (hx : x = .active ∨ x = .fenced) : State.KeepsPorts W s (s.modifyPort p fun u => { u with state := x }) :=
  State.modifyPort_keepsPorts ⟨.inr ⟨was, hx⟩, rfl, fun _ => id⟩ fun _ met => by
    rw [show x = .quiescing from met.1] at hx
    exact hx.elim nofun nofun

theorem State.takeFence_keepsPorts (i : PortId) : State.KeepsPorts W s (s.takeFence i p c) := by
  unfold State.takeFence
  split_ifs with _ _ active
  · exact (s.reply_leaves _ _ _).keeps
  · exact (s.reply_leaves _ _ _).keeps
  · exact (s.serve_keepsPorts p .fenced (.inl (beq_iff_eq.1 active)) (.inr rfl)).trans
      (State.reply_leaves _ _ _ _).keeps
  · exact (s.reply_leaves _ _ _).keeps

theorem State.takeUnfence_keepsPorts (i : PortId) : State.KeepsPorts W s (s.takeUnfence i p c) := by
  unfold State.takeUnfence
  split_ifs with _ fenced
  · exact (s.reply_leaves _ _ _).keeps
  · rw [Bool.and_eq_true, beq_iff_eq] at fenced
    exact (s.serve_keepsPorts p .active (.inr fenced.1) (.inl rfl)).trans (State.reply_leaves _ _ _ _).keeps
  · exact (s.reply_leaves _ _ _).keeps

theorem State.takeClearFault_leaves (i : PortId) : s.LeavesPorts (s.takeClearFault i p c) := by
  unfold State.takeClearFault
  split
  · exact (s.emptyFault_leaves p).trans (State.reply_leaves _ _ _ _)
  · exact s.reply_leaves _ _ _

theorem State.takeQueryPort_leaves (i : PortId) : s.LeavesPorts (s.takeQueryPort i p c) := by
  unfold State.takeQueryPort
  split
  · split <;> exact s.postResult_leaves _ _ _
  · exact s.reply_leaves _ _ _

/-! ### Requests to the configuration unit (R162, R190, R192) -/

theorem State.setConfig_leaves (g : ConfigUnit) : s.LeavesPorts { s with config := g } :=
  .of_frame rfl rfl rfl rfl rfl rfl

theorem State.takeSetParam_leaves : s.LeavesPorts (s.takeSetParam p c) := by
  unfold State.takeSetParam
  split_ifs
  · exact s.reply_leaves _ _ _
  · exact s.reply_leaves _ _ _
  · split
    · exact (s.setConfig_leaves _).trans (State.reply_leaves _ _ _ _)
    · exact s.reply_leaves _ _ _

theorem State.takeClearDeviceFault_leaves : s.LeavesPorts (s.takeClearDeviceFault p c) := by
  unfold State.takeClearDeviceFault
  split
  · exact (s.setConfig_leaves _).trans (State.reply_leaves _ _ _ _)
  · exact s.reply_leaves _ _ _

theorem State.takeQueryDevice_leaves : s.LeavesPorts (s.takeQueryDevice p c) := by
  unfold State.takeQueryDevice
  split
  · split <;> exact s.postResult_leaves _ _ _
  · exact s.reply_leaves _ _ _

end

end Sys2Proof.Machine
end

section
/-! The laws of the port states through resets, the events of the bus and a tick, and through every step. -/

namespace Sys2Proof.Machine

section
variable {W : PortId → Prop} (s : State) (p : PortId)

/-! ### Port reset (R173 to R176) -/

/-- The current access has gone; the quiesce condition that this may meet is still to be evaluated (R174, R175). -/
theorem State.setIdle_keepsPorts : State.KeepsPorts (fun q => W q ∧ q ≠ p) s (s.setCurrent p .idle) :=
  State.modifyPort_keepsPorts ⟨.inl rfl, rfl, fun _ ⟨lookaside, _, drained⟩ => ⟨lookaside, rfl, drained⟩⟩
    fun hp => absurd rfl hp.2

theorem State.abandonOnBus_keepsPorts : State.KeepsPorts W s (s.abandonOnBus p) := by
  unfold State.abandonOnBus
  split
  · exact .refl s
  · rename_i r access
    split
    · split
      · refine State.modifyEngine_keepsPorts rfl fun r' hr fromStore => ?_
        cases Option.some.inj hr
        exact .inr ⟨r, access, fromStore, rfl⟩
      · exact ((s.engineSubtract_leaves _ _).keeps.trans (State.modifyEngine_keepsPorts_of_none rfl rfl)).trans
          (State.choose_keepsPorts _)
    · exact .refl s

theorem State.abandonCurrent_keepsPorts : State.KeepsPorts (fun q => W q ∧ q ≠ p) s (s.abandonCurrent p) := by
  have idle : State.KeepsPorts (fun q => W q ∧ q ≠ p) s (s.setCurrent p .idle) := s.setIdle_keepsPorts p
  unfold State.abandonCurrent
  dsimp only
  split
  · exact idle
  · exact idle.trans (State.setStaleWalk_leaves _ p true).keeps
  · exact idle
  · exact idle
  · rename_i adm _ _
    exact (idle.trans (State.modifyEngine_keepsPorts_of_record rfl rfl)).trans
      (State.sendToTable_leaves _ p (.subtraction adm.window adm.epoch) fun _ => nofun).keeps
  · exact idle.trans (State.abandonOnBus_keepsPorts _ p)

/-- A port reset empties the lookaside, and makes of the port states only FENCED another (R173, R176). -/
theorem PortUnit.Evolves.afterReset (u : PortUnit) : u.Evolves u.afterReset := by
  refine ⟨?_, rfl, fun _ ⟨_, idle, drained⟩ => ⟨rfl, idle, drained⟩⟩
  change u.state.afterReset = u.state ∨ _
  cases state : u.state with
  | fenced => exact .inr ⟨.inr rfl, .inl (by simp [PortUnit.afterReset, PortState.afterReset, state])⟩
  | offline | active | quiescing => exact .inl rfl

theorem State.resetPort_keepsPorts : State.KeepsPorts W s (s.resetPort p) := by
  have reset : ∀ t : State, State.KeepsPorts (fun q => W q ∧ q ≠ p) t (t.modifyPort p PortUnit.afterReset) :=
    fun t => State.modifyPort_keepsPorts (.afterReset _) fun hp => absurd rfl hp.2
  exact (((s.abandonCurrent_keepsPorts p).trans (reset _)).trans
    ((State.setReservation_leaves _ p).trans (State.clearSlot_leaves _ p)).keeps).evaluated

/-! ### Device reset (R177) -/

/-- No port is OFFLINE with work, or QUIESCING, right after the reset values are set. -/
theorem State.resetTaking_lawful (st : Straps) (done : List PortId) :
    (s.resetTaking st done).PortsAccountForWork ∧ (s.resetTaking st done).PortZeroServes ∧
      (s.resetTaking st done).NoneLeftQuiesced := by
  have unit := s.resetTaking_port st done
  have closed : ∀ q, ((s.resetTaking st done).port q).state = .quiescing ∨
      ((s.resetTaking st done).port q).state = .offline → strapOnline st q = false := fun q => by
    rw [unit]
    rcases h : strapOnline st q with _ | _ <;> simp [resetPortUnit, h]
  refine ⟨State.portsAccountForWork_iff.2 ⟨fun q _ => ?_, nofun, fun q => ?_, fun q hq => ?_⟩, ⟨?_, ?_, ?_⟩,
    fun q met => ?_⟩
  · rw [unit]
    exact ⟨rfl, rfl, rfl⟩
  · rw [unit]
    simp [State.resetTaking, State.deviceReset, resetLinks, resetPortUnit, State.storePorts, resetEngine]
  · simp [State.resetTaking, State.deviceReset, resetMonitor, State.reservation, closed q hq]
  · rw [unit]
    exact .inl rfl
  · simp [State.resetTaking, State.deviceReset, resetTable]
    rfl
  · simp [State.toTable, State.resetTaking, State.deviceReset, resetLinks]
  · rw [unit] at met
    rcases h : strapOnline st q with _ | _ <;> simp [PortUnit.QuiesceMet, resetPortUnit, h] at met

/-! ### The events of the bus (R96 to R98, R106 to R110, R116, R117, R127) -/

theorem State.partInProgress_access {r : BusAccess} {part : BusPart} (h : s.partInProgress = some (r, part)) :
    s.engine.access = some r := by
  unfold State.partInProgress at h
  split at h
  · rename_i access _
    cases h
    exact access
  · cases h

/-- A part ends: its access is abandoned already, or goes on to u (R106, R114). -/
theorem State.partEnded_keepsPorts {r : BusAccess} (access : s.engine.access = some r) {t u : State}
    (ended : t.engine = s.engine.endPart) (leaves : State.KeepsPorts W s t)
    (h : (r.fromStore = true → t.ShowsEntry r.origin) → State.KeepsPorts W t u) :
    State.KeepsPorts W s (if r.abandoned then t.endAbandoned r else u) := by
  split
  · exact leaves.trans (State.endAbandoned_keepsPorts _ r)
  · refine leaves.trans (h fun fromStore => .inr ⟨r, ?_, fromStore, rfl⟩)
    rw [ended]
    exact access

theorem State.endPart_keepsPorts : State.KeepsPorts W s (s.modifyEngine Engine.endPart) :=
  State.modifyEngine_keepsPorts_of_record rfl rfl

theorem State.breakGranule_leaves (a : SysAddr) : s.LeavesPorts (s.breakGranule a) :=
  s.keepReservations_leaves _

/-- The report that an entry has finished lowers the copy that counted it (R127); the condition this may meet is evaluated
in the event (R170). -/
theorem State.reportTaken_keepsPorts (reported : s.links.reports.get p ≠ 0) :
    State.KeepsPorts (fun q => W q ∧ q ≠ p) s
      (({ s with links := { s.links with reports := vput s.links.reports p (s.links.reports.get p - 1) } } :
        State).modifyPort p fun u => { u with occupancyCopy := u.occupancyCopy - 1 }) := by
  refine ⟨fun owed hs => ⟨fun q => ?_, hs.record, fun q => ?_, fun q => ?_⟩, fun hs => ?_, fun q hq met => ?_⟩
  · rw [State.modifyPort_port_at]
    split
    · intro offline
      obtain ⟨lookaside, idle, drained⟩ := hs.vacant p offline
      exact ⟨lookaside, idle, show (s.port p).occupancyCopy - 1 = 0 by omega⟩
    · exact hs.vacant q
  · have counted := hs.copy q
    rw [State.modifyPort_port_at]
    split
    · rename_i hq
      subst hq
      change (s.port q).occupancyCopy - 1 = s.storePorts.count q +
        (vput s.links.reports q (s.links.reports.get q - 1)).get q + owed q
      rw [vput_get, if_pos rfl]
      omega
    · rename_i hq
      change (s.port q).occupancyCopy = s.storePorts.count q +
        (vput s.links.reports p (s.links.reports.get p - 1)).get q + owed q
      rw [vput_get, if_neg hq]
      exact counted
  · rw [State.modifyPort_port_at]
    split
    · rename_i hq
      exact hq ▸ hs.closed p
    · exact hs.closed q
  · exact State.modifyPort_portZeroServes (s := { s with links := _ }) hs fun _ => hs.1
  · rw [State.modifyPort_port_at, if_neg hq.2] at met
    exact met

/-! ### Every command -/

variable {s} {t : State}

theorem execPartAck_keepsPorts {lanes : Word} {n : Nat} (h : execPartAck lanes s n = .next t) :
    State.KeepsPorts W s t := by
  cases h
  split
  · exact .refl s
  · rename_i r part taken
    have reports := (State.endPart_keepsPorts s).trans (State.reportPart_leaves _ part).keeps (W := W)
    exact s.partEnded_keepsPorts (State.terminated_access taken) (by simp) reports
      (State.partCompleted_keepsPorts (r := r.advance part lanes))

theorem execPartErr_keepsPorts {n : Nat} (h : execPartErr s n = .next t) : State.KeepsPorts W s t := by
  cases h
  split
  · exact .refl s
  · rename_i taken
    exact s.partEnded_keepsPorts (State.terminated_access taken) rfl s.endPart_keepsPorts
      fun entry => State.failAccess_keepsPorts entry _

theorem execPartRty_keepsPorts {n : Nat} (h : execPartRty s n = .next t) : State.KeepsPorts W s t := by
  cases h
  split
  · exact .refl s
  · rename_i taken
    exact s.partEnded_keepsPorts (State.terminated_access taken) rfl s.endPart_keepsPorts State.retryPart_keepsPorts

theorem execResponseTimerExpiry_keepsPorts (h : execResponseTimerExpiry s = .next t) : State.KeepsPorts W s t := by
  cases h
  split
  · exact .refl s
  · rename_i taken
    exact s.partEnded_keepsPorts (s.partInProgress_access (State.timedOut_part taken)) rfl s.endPart_keepsPorts
      fun entry => State.failAccess_keepsPorts entry _

theorem execRetryWaitExpiry_keepsPorts (h : execRetryWaitExpiry s = .next t) : State.KeepsPorts W s t := by
  cases h
  split
  · exact State.KeepsPorts.trans (State.modifyEngine_keepsPorts_of_record rfl rfl) (State.choose_keepsPorts _)
  · exact .refl s

theorem execExternalRequest_keepsPorts (h : execExternalRequest s = .next t) : State.KeepsPorts W s t := by
  cases h
  split
  · exact .refl s
  · exact State.KeepsPorts.trans (State.modifyEngine_keepsPorts_of_record rfl rfl) (State.choose_keepsPorts _)

theorem execExternalWithdraw_keepsPorts (h : execExternalWithdraw s = .next t) : State.KeepsPorts W s t := by
  have withdrawn : State.KeepsPorts W s (s.modifyEngine Engine.withdrawExternal) := by
    refine State.modifyEngine_keepsPorts_of_record ?_ ?_ <;> unfold Engine.withdrawExternal <;> split <;> rfl
  cases h
  split
  · exact withdrawn.trans (State.choose_keepsPorts _)
  · exact withdrawn

theorem execEntryFinishedReport_keepsPorts (h : execEntryFinishedReport p s = .next t) : State.KeepsPorts W s t := by
  cases h
  split
  · exact .refl s
  · exact (s.reportTaken_keepsPorts p (by assumption)).evaluated

theorem execAddition_keepsPorts (h : execAddition p s = .next t) : State.KeepsPorts W s t := by
  cases h
  split
  · rename_i w e rest first
    split
    · exact .refl s
    · exact (((s.takeFromPort_leaves p first).trans (State.modifyCount_leaves _ w e _)).trans
        (State.evaluate_leaves _ w)).keeps.trans (State.offerAdded_keepsPorts _ p)
  · exact .refl s

theorem execSubtraction_keepsPorts {sender : SubtractionSender} (h : execSubtraction sender s = .next t) :
    State.KeepsPorts W s t := by
  cases h
  split
  · split
    · rename_i p _ w e rest first
      exact ((s.takeFromPort_leaves p first).trans (State.subtract_leaves _ w e)).keeps
    · exact .refl s
  · split
    · rename_i w e rest _
      have taken : s.LeavesPorts { s with links := { s.links with engineToTable := rest } } :=
        .of_frame rfl rfl rfl rfl rfl rfl
      exact (taken.trans (State.subtract_leaves _ w e)).keeps
    · exact .refl s

theorem execShootDown_keepsPorts (h : execShootDown p s = .next t) : State.KeepsPorts W s t := by
  cases h
  split
  · rename_i w g rest _
    exact ((s.setToPort_leaves p rest).keeps.trans (State.invalidate_keepsPorts _ p w)).trans
      (State.sendToTable_leaves _ p (.acknowledgement w g) fun _ => nofun).keeps
  · exact .refl s

/-- Every command but a device reset keeps the laws from the state before. -/
theorem exec_keepsPorts {i : Instr} (h : exec i s = .next t) (notReset : ∀ st, i ≠ .deviceReset st) :
    State.KeepsPorts W s t := by
  have taken : ∀ p l, State.KeepsPorts W s (s.setToPort p l) := fun p l => (s.setToPort_leaves p l).keeps
  cases i with
  | accessArrival p a => cases h; exact s.presentAccess_keepsPorts p _
  | registerWrite p word value => cases h; exact s.presentAccess_keepsPorts p _
  | acknowledge p => cases h; exact s.presentAccess_keepsPorts p _
  | walk =>
    cases h
    split
    · exact .refl s
    · split
      · exact .refl s
      · exact (s.takeWalk_leaves _ _).keeps
  | admitAnswer p =>
    cases h
    split
    · exact (taken p _).trans (State.takeAdmitted_keepsPorts _ p _)
    · exact .refl s
  | denyAnswer p =>
    cases h
    split
    · exact (taken p _).trans (State.takeDenied_keepsPorts _ p _ _)
    · exact .refl s
  | noneAnswer p =>
    cases h
    split
    · exact (taken p _).trans (State.takeNoWindow_keepsPorts _ p)
    · exact .refl s
  | parkAnswer p =>
    cases h
    split
    · exact (taken p _).trans (State.takePark_keepsPorts _ p _)
    · exact .refl s
  | addition p => exact execAddition_keepsPorts p h
  | subtraction sender => exact execSubtraction_keepsPorts h
  | acknowledgement p =>
    cases h
    split
    · rename_i first
      exact ((s.takeFromPort_leaves p first).trans (State.acknowledge_leaves _ p _ _)).keeps
    · exact .refl s
  | offlineNotice p => exact execOfflineNotice_keepsPorts h
  | onlineNotice p =>
    cases h
    split
    · rename_i first
      exact (s.takeFromPort_leaves p first).keeps.trans (State.setView_keepsPorts _ p false fun _ => nofun)
    · exact .refl s
  | shootDown p => exact execShootDown_keepsPorts p h
  | releaseNotice p =>
    cases h
    split
    · exact (taken p _).trans (State.takeRelease_keepsPorts _ p _)
    · exact .refl s
  | retireNotice p =>
    cases h
    split
    · exact (taken p _).trans (State.takeRetire_keepsPorts _ p _)
    · exact .refl s
  | parkTimerExpiry p =>
    cases h
    split
    · exact s.endCurrent_keepsPorts p _ _
    · exact .refl s
  | define => cases h; exact (s.windowRequest_leaves _ fun p c w t => t.takeDefine_leaves p c w).keeps
  | amend => cases h; exact (s.windowRequest_leaves _ fun p c w t => t.takeAmend_leaves p c w).keeps
  | enable => cases h; exact (s.windowRequest_leaves _ fun p c w t => t.takeEnable_leaves p c w).keeps
  | hold => cases h; exact (s.windowRequest_leaves _ fun p c w t => t.takeHold_leaves p c w).keeps
  | release => cases h; exact (s.windowRequest_leaves _ fun p c w t => t.takeReleaseRequest_leaves p c w).keeps
  | retire => cases h; exact (s.windowRequest_leaves _ fun p c w t => t.takeRetireRequest_leaves p c w).keeps
  | setRights => cases h; exact (s.windowRequest_leaves _ fun p c w t => t.takeSetRights_leaves p c w).keeps
  | queryWindow => cases h; exact (s.onTableRequest_leaves _ fun p c t => t.takeQueryWindow_leaves p c).keeps
  | portOnline i => cases h; exact s.onPortRequest_keepsPorts i _ fun q c t => t.takeOnline_keepsPorts q c i
  | portOffline i => cases h; exact s.onPortRequest_keepsPorts i _ fun q c t => t.takeOffline_keepsPorts q c i
  | fence i => cases h; exact s.onPortRequest_keepsPorts i _ fun q c t => t.takeFence_keepsPorts q c i
  | unfence i => cases h; exact s.onPortRequest_keepsPorts i _ fun q c t => t.takeUnfence_keepsPorts q c i
  | clearFault i => cases h; exact s.onPortRequest_keepsPorts i _ fun q c t => (t.takeClearFault_leaves q c i).keeps
  | queryPort i => cases h; exact s.onPortRequest_keepsPorts i _ fun q c t => (t.takeQueryPort_leaves q c i).keeps
  | setParam i => cases h; exact s.onRequest_keepsPorts i _ fun c t => (t.takeSetParam_leaves i c).keeps
  | clearDeviceFault i => cases h; exact s.onRequest_keepsPorts i _ fun c t => (t.takeClearDeviceFault_leaves i c).keeps
  | queryDevice i => cases h; exact s.onRequest_keepsPorts i _ fun c t => (t.takeQueryDevice_leaves i c).keeps
  | resultTaken p number result => cases h; exact (s.postResult_leaves p _ _).keeps
  | partAck lanes number => exact execPartAck_keepsPorts h
  | partErr number => exact execPartErr_keepsPorts h
  | partRty number => exact execPartRty_keepsPorts h
  | responseTimerExpiry => exact execResponseTimerExpiry_keepsPorts h
  | retryWaitExpiry => exact execRetryWaitExpiry_keepsPorts h
  | externalRequest => exact execExternalRequest_keepsPorts h
  | externalWithdraw => exact execExternalWithdraw_keepsPorts h
  | externalWriteAck addr size =>
    cases h
    split
    · exact (s.breakGranule_leaves addr).keeps
    · exact .refl s
  | entryFinishedReport p => exact execEntryFinishedReport_keepsPorts p h
  | portReset p =>
    cases h
    split
    · exact .refl s
    · exact (s.setResetInput_leaves p true).keeps.trans (State.resetPort_keepsPorts _ p)
  | deviceReset straps => exact absurd rfl (notReset straps)
  | portResetRelease p => cases h; exact (s.setResetInput_leaves p false).keeps

/-- A device reset sets the laws up, whatever the state before (R177). -/
theorem execDeviceReset_lawful {st : Straps} (h : execDeviceReset st s = .next t) :
    t.PortsAccountForWork ∧ t.PortZeroServes ∧ t.NoneLeftQuiesced := by
  obtain ⟨accounts, zero, unmet⟩ := s.resetTaking_lawful st allPorts
  have chosen : State.KeepsPorts (fun _ => True) (s.resetTaking st allPorts) t := by
    rw [← Host.Outcome.next.inj h, s.deviceReset_taken]
    exact State.choose_keepsPorts _
  exact ⟨State.portsAccountForWork_iff.2 (chosen.accounts _ (State.portsAccountForWork_iff.1 accounts)),
    chosen.zero zero, fun p => unmet p ∘ chosen.unmet p trivial⟩

/-! ### Every step -/

theorem CurrentAccess.tick_idle {c : CurrentAccess} : c.tick = .idle ↔ c = .idle := by
  cases c <;> simp [CurrentAccess.tick]

/-- A tick of the timebase counts timers only (R115). -/
theorem State.tick_keepsPorts (s : State) : State.KeepsPorts W s s.tick := by
  have unit : ∀ p, s.tick.port p = { s.port p with current := (s.port p).current.tick } := fun p => by
    simp [State.tick, State.tickTimers, State.port]
  refine ⟨fun owed hs => ⟨fun p => ?_, hs.record, fun p => ?_, fun p => ?_⟩, fun hs => ⟨?_, hs.2⟩, fun p _ => ?_⟩
  · rw [unit]
    intro offline
    obtain ⟨lookaside, idle, drained⟩ := hs.vacant p offline
    exact ⟨lookaside, CurrentAccess.tick_idle.2 idle, drained⟩
  · rw [unit]
    exact hs.copy p
  · rw [unit]
    exact hs.closed p
  · rw [unit]
    exact hs.1
  · rw [unit]
    rintro ⟨quiescing, idle, drained⟩
    exact ⟨quiescing, CurrentAccess.tick_idle.1 idle, drained⟩

/-- The queue of waiting commands is no part of the laws. -/
theorem State.setPending_keepsPorts (s : State) (is : List Instr) :
    State.KeepsPorts W s { s with pending := is } :=
  (State.LeavesPorts.of_frame (s := s) (t := { s with pending := is }) rfl rfl rfl rfl rfl rfl).keeps

/-- Every step keeps the laws of the port states, or is a device reset, which sets them up. -/
theorem step_keepsPorts (h : step s = .next t) :
    State.KeepsPorts W s t ∨ (t.PortsAccountForWork ∧ t.PortZeroServes ∧ t.NoneLeftQuiesced) := by
  unfold step at h
  split at h
  · cases h
    exact .inl s.tick_keepsPorts
  · rename_i i rest _
    by_cases reset : ∃ st, i = .deviceReset st
    · obtain ⟨st, rfl⟩ := reset
      exact .inr (execDeviceReset_lawful h)
    · exact .inl ((s.setPending_keepsPorts rest).trans
        (exec_keepsPorts h fun st hi => reset ⟨st, hi⟩))

/-- No step leaves a QUIESCING port whose access is IDLE and whose copy is 0 (R170). -/
theorem noneLeftQuiesced_isKept : State.IsKept State.NoneLeftQuiesced := by
  intro s t hs h
  rcases step_keepsPorts (W := fun _ => True) h with keeps | ⟨-, -, lawful⟩
  · exact fun p met => hs p (keeps.unmet p trivial met)
  · exact lawful

end

/-- Settles O55: an entry joins the store only for an access under way, whose port is not OFFLINE, together with the port's
copy (`State.accept_keepsPorts`), and a port enters OFFLINE only as its quiesce condition is met
(`State.enterOffline_accounts`). -/
theorem offlinePortsKeepEmpty : Obligations.OfflinePortsKeepEmpty := by
  intro s t hs h
  rcases step_keepsPorts (W := fun _ => True) h with keeps | ⟨lawful, -, -⟩
  · exact State.portsAccountForWork_iff.2 (keeps.accounts _ (State.portsAccountForWork_iff.1 hs))
  · exact lawful

/-- Settles O56: PORT_OFFLINE is refused at I0 (`State.takeOffline_keepsPorts`), so no quiesce condition is ever met there
and its offline notice is never sent (`State.enterOffline_portZeroServes`). -/
theorem portZeroKeepsServing : Obligations.PortZeroKeepsServing := by
  intro s t hs h
  rcases step_keepsPorts (W := fun _ => True) h with keeps | ⟨-, lawful, -⟩
  · exact keeps.zero hs
  · exact lawful

end Sys2Proof.Machine
end

section
/-! PORT_ONLINE and PORT_OFFLINE (R146, R167, R169 to R171). -/

namespace Sys2Proof.Machine

/-! ### A unit that becomes another, or that and OFFLINE (R170, R171) -/

section
variable {s t : State} {p : PortId} {x : PortUnit} (h : s.Becomes p x t)
include h

theorem State.Becomes.frame : t = { s with
    ports := t.ports
    links := { s.links with toTable := t.links.toTable }
    table := { s.table with walks := t.table.walks } } := by
  by_cases met : x.QuiesceMet
  · exact (h.2 met).2.2
  · rw [h.1 met]

theorem State.Becomes.unmet (unmet : ¬ x.QuiesceMet) :
    t.port = Units.put s.port p x ∧ t.links.toTable = s.links.toTable ∧ t.table.walks = s.table.walks := by
  rw [h.1 unmet]
  exact ⟨s.modifyPort_units p fun _ => x, rfl, rfl⟩

theorem State.Becomes.met (met : x.QuiesceMet) :
    s.Sends t p [.offlineNotice] ∧ t.port = (Units.put s.port p x).wentOffline p (s.requestOf p).isSome :=
  ⟨(h.2 met).1, (h.2 met).2.1⟩

end

/-! ### The requests, accepted -/

section
variable {s : State} {i q : PortId} {c : Captured} (supervisor : (s.port i).role = .supervisor)
include supervisor

theorem State.takeOnline_offline (h : (s.port q).state = .offline) : s.takeOnline i q c =
    (((s.modifyPort q fun u => { u with state := .active }).sendToTable q .onlineNotice).setPermission q true).reply
      i c .done := by
  simp [State.takeOnline, State.supervisor_iff, supervisor, h]

theorem State.takeOffline_serving (other : q ≠ i) (notZero : q ≠ 0)
    (h : (s.port q).state = .active ∨ (s.port q).state = .fenced) : s.takeOffline i q c =
    (((s.setReservation q none).setPermission q false).modifyPort q fun u =>
      { u with state := .quiescing, offlineRequester := some (i, c.number) }).evaluateQuiesce q := by
  have serves : ((s.port q).state == .active || (s.port q).state == .fenced) = true := by simpa using h
  unfold State.takeOffline
  rw [if_neg (by simp [State.supervisor_iff, supervisor]), if_neg (by simpa using other),
    if_neg (by simpa using notZero), if_pos serves]
  rfl

end

theorem Units.told_other {u : Units} {p q : PortId} (h : q ≠ p) : u.told p q = u q := if_neg h

theorem State.requestTaken_requestOf_other {s : State} {p q : PortId} (h : q ≠ p) :
    (s.requestTaken p).requestOf q = s.requestOf q := by
  simp [State.requestOf, State.requestsAfter, h]

/-- PORT_ONLINE at an OFFLINE port (R146, R167). -/
theorem portOnline_becomesActive {s : State} {i q : PortId} {c : Captured} (h : s.Asks i c .portOnline)
    (ht : c.target = q.val) (supervisor : (s.port i).role = .supervisor) (offline : (s.port q).state = .offline) :
    ∃ t, exec (.portOnline i) s = .next t ∧ s.Sends t q [.onlineNotice] ∧
      t.port = (Units.put (Units.told s.port i) q
        { Units.told s.port i q with state := .active }).given i c.number (plainResult .done none) ∧
      t = { s with
        ports := t.ports
        links := { s.links with requests := s.requestsAfter i, toTable := t.links.toTable }
        table := { s.table with walks := t.table.walks }
        monitor := { s.monitor with permission := vput s.monitor.permission q true } } := by
  have taken : (s.requestTaken i).takeOnline i q c = _ :=
    State.takeOnline_offline (by simpa using supervisor) (by simpa using offline)
  let active := (s.requestTaken i).modifyPort q fun u => { u with state := .active }
  have sends := active.sendToTable_sends q .onlineNotice
  refine ⟨_, (exec_portOnline h ht).trans (congrArg _ taken), ?_, ?_, ?_⟩
  · exact State.Sends.congr (sends.congr_left (by simp [active]) (by simp [active])) (by simp [State.reply, active])
      (by simp [State.reply, active])
  · have units : active.port = Units.put (Units.told s.port i) q { Units.told s.port i q with state := .active } := by
      rw [State.modifyPort_units, State.requestTaken_port]
    have sent : (active.sendToTable q .onlineNotice).port = active.port := State.port_congr (by simp)
    rw [State.reply, State.postResult_port, ← units, ← sent]
    rfl
  · rw [State.reply, State.postResult_eq]
    apply State.eq_of_blocks
    case hl => apply Links.eq_of_fields <;> simp
    case ht => apply Table.eq_of_fields <;> simp
    all_goals simp [State.setPermission]

/-- PORT_OFFLINE at an ACTIVE or FENCED port other than I0, with what the evaluation of the quiesce condition makes of it
(R146, R168 to R171). -/
theorem portOffline_becomes {s : State} {i q : PortId} {c : Captured} (h : s.Asks i c .portOffline)
    (ht : c.target = q.val) (supervisor : (s.port i).role = .supervisor) (other : q ≠ i) (notZero : q ≠ 0)
    (serves : (s.port q).state = .active ∨ (s.port q).state = .fenced) :
    ∃ t, exec (.portOffline i) s = .next t ∧
      (((s.requestTaken i).setReservation q none).setPermission q false).Becomes q
        { s.port q with state := .quiescing, offlineRequester := some (i, c.number) } t := by
  have unit : (s.requestTaken i).port q = s.port q := by rw [State.requestTaken_port, Units.told_other other]
  have taken : (s.requestTaken i).takeOffline i q c = _ :=
    State.takeOffline_serving (by simpa using supervisor) other notZero (unit ▸ serves)
  have becomes := (((s.requestTaken i).setReservation q none).setPermission q false).evaluateQuiesce_becomes q fun u =>
    { u with state := .quiescing, offlineRequester := some (i, c.number) }
  exact ⟨_, (exec_portOffline h ht).trans (congrArg _ taken), by simpa [unit] using becomes⟩

/-- Settles O31: PORT_ONLINE is an equation of its own; PORT_OFFLINE makes its target QUIESCING and evaluates the quiesce
condition (`portOffline_becomes`), which holds exactly where nothing is outstanding. -/
theorem portsGoOnlineAndOffline : Obligations.PortsGoOnlineAndOffline := by
  refine ⟨fun s i q c => portOnline_becomesActive, fun s i q c h ht supervisor other notZero serves => ?_⟩
  intro units
  obtain ⟨t, he, becomes⟩ := portOffline_becomes h ht supervisor other notZero serves
  have told : ((((s.requestTaken i).setReservation q none).setPermission q false)).port = Units.told s.port i :=
    s.requestTaken_port i
  have request : (((s.requestTaken i).setReservation q none).setPermission q false).requestOf q = s.requestOf q :=
    State.requestTaken_requestOf_other other
  refine ⟨t, he, becomes.frame.trans ?_, fun outstanding => ?_, fun idle drained => ?_⟩
  · apply State.eq_of_blocks
    case hl => apply Links.eq_of_fields <;> simp
    all_goals simp [State.setPermission, State.setReservation]
  · have unmet := becomes.unmet fun met => outstanding.elim (absurd met.2.1) (absurd met.2.2)
    simpa [told, units] using unmet
  · obtain ⟨sends, port⟩ := becomes.met ⟨rfl, idle, drained⟩
    refine ⟨sends.congr_left (by simp) (by simp), ?_⟩
    rw [port, told, request]

end Sys2Proof.Machine
end

section
/-! The port reset (R173 to R176): the current access abandoned by its stage, the unit's state cleared, and the quiesce
condition evaluated. -/

namespace Sys2Proof.Machine

/-! ### The unit -/

/-- The unit whose current access is abandoned: a sent walk leaves the stale-walk flag (R45, R174). -/
def PortUnit.abandoned (u : PortUnit) : PortUnit :=
  { u with
    current := .idle
    staleWalk := match u.current with
      | .walking _ true => true
      | _ => u.staleWalk }

/-- The unit after its access was abandoned and the rest of it reset; `untaken` says that a request of its slot has not
been taken (R173, R175). -/
def PortUnit.resetWith (u : PortUnit) (untaken : Bool) : PortUnit :=
  { u.afterReset with slot := u.slot.emptied, staleRequest := u.staleRequest || untaken }

/-- The unit as a port reset leaves it, where its quiesce condition is not met. -/
def PortUnit.wasReset (u : PortUnit) (untaken : Bool) : PortUnit :=
  (PortUnit.abandoned { u with resetInput := true }).resetWith untaken

/-- Where no walk is under way, the stale-walk flag stays. -/
theorem PortUnit.abandoned_unsent {u : PortUnit} (h : ∀ a, u.current ≠ .walking a true) :
    u.abandoned = { u with current := .idle } := by
  unfold PortUnit.abandoned
  split
  · exact absurd (by assumption) (h _)
  · rfl

theorem PortState.afterReset_eq (x : PortState) : x.afterReset = if x = .fenced then .active else x := by
  cases x <;> rfl

theorem PortUnit.wasReset_quiesceMet {u : PortUnit} {b : Bool} :
    (u.wasReset b).QuiesceMet ↔ u.state = .quiescing ∧ u.occupancyCopy = 0 :=
  ⟨fun ⟨state, _, drained⟩ => ⟨(PortState.afterReset_quiescing _).1 state, drained⟩,
    fun ⟨state, drained⟩ => ⟨(PortState.afterReset_quiescing _).2 state, rfl, drained⟩⟩

theorem Units.put_put (us : Units) (p : PortId) (x y : PortUnit) : (us.put p x).put p y = us.put p y := by
  funext q
  by_cases hq : q = p <;> simp [Units.put, hq]

theorem removePort_eq (p : PortId) (l : List PortId) : removePort p l = l.filter fun q => q ≠ p :=
  List.filter_congr fun q _ => by by_cases hq : q = p <;> simp [hq]

/-- A port whose channel and waiting walk stay has sent nothing. -/
theorem State.Sends.nothing {s t : State} {p : PortId} (ht : t.links.toTable = s.links.toTable)
    (hw : t.table.walks = s.table.walks) : s.Sends t p [] :=
  State.Sends.congr (t := s) ⟨(List.append_nil _).symm, fun _ _ => ⟨rfl, rfl⟩⟩ ht hw

/-! ### What the choices leave of a slot -/

theorem Units.given_number (us : Units) (p : PortId) (n : RequestNumber) (r : Result) (q : PortId) :
    (us.given p n r q).slot.number = (us q).slot.number := by
  unfold Units.given Units.put Slot.given
  split
  · rename_i hq
    subst hq
    dsimp only
    split <;> rfl
  · rfl

theorem Units.wentOffline_number (us : Units) (p : PortId) (b : Bool) (q : PortId) :
    (us.wentOffline p b q).slot.number = (us q).slot.number := by
  have put : (us.put p ((us p).offlined b) q).slot.number = (us q).slot.number := by
    unfold Units.put
    split
    · rename_i hq
      rw [hq]
      rfl
    · rfl
  unfold Units.wentOffline
  rcases (us p).offlineRequester with _ | ⟨x, n⟩
  · exact put
  · exact (Units.given_number _ _ _ _ _).trans put

/-- No slot's request number changes but by a capture (R179). -/
theorem State.Becomes.number {s t : State} {p : PortId} {x : PortUnit} (h : s.Becomes p x t)
    (hx : x.slot.number = (s.port p).slot.number) (q : PortId) :
    (t.port q).slot.number = (s.port q).slot.number := by
  have put : (Units.put s.port p x q).slot.number = (s.port q).slot.number := by
    unfold Units.put
    split
    · rename_i hq
      rw [hq]
      exact hx
    · rfl
  by_cases met : x.QuiesceMet
  · rw [(h.met met).2, Units.wentOffline_number, put]
  · rw [(h.unmet met).1, put]

theorem State.Chooses.number {s t : State} (h : s.Chooses t) (q : PortId) :
    (t.port q).slot.number = (s.port q).slot.number := by
  have started : ∀ (s : State) p r c, ((s.started p r c).port q).slot.number = (s.port q).slot.number :=
    fun s p r c => by
      change ((s.modifyPort p fun u => { u with current := c }).port q).slot.number = _
      rw [State.modifyPort_port_at]
      split
      · rename_i hq
        rw [hq]
      · rfl
  induction h with
  | external => rfl
  | nothing => rfl
  | starts => exact started _ _ _ _
  | @consumes s p r c => exact started s p r c
  | linkFailed _ _ _ _ _ becomes _ ih => exact ih.trans (becomes.number rfl q)

/-! ### The reset, once the access is abandoned -/

theorem State.modifyPort_congr {s : State} {p : PortId} {f g : PortUnit → PortUnit} (h : f (s.port p) = g (s.port p)) :
    s.modifyPort p f = s.modifyPort p g := by
  rw [State.modifyPort_eq, State.modifyPort_eq, h]

theorem State.abandonCurrent_unadmitted {s : State} {p : PortId}
    (unadmitted : ∀ a adm o, (s.port p).current ≠ .waiting a adm o)
    (offBus : ∀ a adm, (s.port p).current ≠ .onBus a adm) :
    s.abandonCurrent p = s.modifyPort p PortUnit.abandoned := by
  unfold State.abandonCurrent
  dsimp only
  split <;> rename_i current
  · exact State.modifyPort_congr (by simp [PortUnit.abandoned, current])
  · exact (State.modifyPort_modifyPort _ _ _ _).trans
      (State.modifyPort_congr (by simp [PortUnit.abandoned, current]))
  · exact State.modifyPort_congr (by simp [PortUnit.abandoned, current])
  · exact State.modifyPort_congr (by simp [PortUnit.abandoned, current])
  · exact absurd current (unadmitted _ _ _)
  · exact absurd current (offBus _ _)

theorem State.setResetInput_port (s : State) (p : PortId) (b : Bool) :
    (s.setResetInput p b).port p = { s.port p with resetInput := b } := by
  simp [State.setResetInput]

/-- Port p with its reset input asserted and its access gone. -/
def State.resetIdle (s : State) (p : PortId) : State :=
  s.modifyPort p fun u => { u with resetInput := true, current := .idle }

theorem State.resetIdle_port (s : State) (p : PortId) :
    (s.resetIdle p).port = Units.put s.port p { s.port p with resetInput := true, current := .idle } :=
  s.modifyPort_units p _

/-- Port p's retrying access has left the record and the retry waiters, and the engine has sent its subtraction. -/
def State.retryDropped (s : State) (p : PortId) (r : BusAccess) : State :=
  { s.resetIdle p with
    links := { s.links with engineToTable := s.links.engineToTable ++ [(r.window, r.epoch)] }
    engine := { s.engine with access := none, retryWaiters := removePort p s.engine.retryWaiters } }

theorem State.retryDropped_port (s : State) (p : PortId) (r : BusAccess) :
    (s.retryDropped p r).port = Units.put s.port p { s.port p with resetInput := true, current := .idle } :=
  s.resetIdle_port p

theorem State.resetPort_becomes {s m : State} {p : PortId} (h : s.abandonCurrent p = m) :
    (m.setReservation p none).Becomes p ((m.port p).resetWith (m.requestOf p).isSome) (s.resetPort p) := by
  have cleared : ((m.modifyPort p PortUnit.afterReset).setReservation p none).clearSlot p =
      (m.setReservation p none).modifyPort p fun u => u.resetWith (m.requestOf p).isSome := by
    unfold State.clearSlot
    apply State.eq_of_blocks
    case hp => simp; rfl
    case hm => rfl
    all_goals simp
  unfold State.resetPort
  rw [h]
  dsimp only
  rw [cleared]
  exact (m.setReservation p none).evaluateQuiesce_becomes p fun u => u.resetWith (m.requestOf p).isSome

theorem exec_portReset {s : State} {p : PortId} (released : (s.port p).resetInput = false) :
    exec (.portReset p) s = .next ((s.setResetInput p true).resetPort p) := by
  simp [exec, execPortReset, released]

/-- A port reset leaves the unit reset, or OFFLINE where that meets its quiesce condition; the port has sent `ms` before
its offline notice, the engine is `engine` and has sent `subtractions` (R171, R173 to R176). -/
def State.ResetLeaves (s : State) (p : PortId) (ms : List PortMessage) (engine : Engine)
    (subtractions : List (WindowId × Epoch)) : Prop :=
  let ends := (s.port p).state = .quiescing ∧ (s.port p).occupancyCopy = 0
  let units := Units.put s.port p ((s.port p).wasReset (s.requestOf p).isSome)
  ∃ t, exec (.portReset p) s = .next t ∧
    (ends → s.Sends t p (ms ++ [.offlineNotice]) ∧ t.port = units.wentOffline p (s.requestOf p).isSome) ∧
    (¬ ends → s.Sends t p ms ∧ t.port = units) ∧
    t = { s with
      ports := t.ports
      links := { s.links with
        toTable := t.links.toTable, engineToTable := s.links.engineToTable ++ subtractions }
      table := { s.table with walks := t.table.walks }
      engine := engine
      monitor := { s.monitor with reservations := vput s.monitor.reservations p none } }

section
variable {s : State} {p : PortId} (released : (s.port p).resetInput = false)
include released

/-- What is left follows from what the abandoning of the access leaves. -/
theorem State.ResetLeaves.of_abandoned {m : State} {ms : List PortMessage} {engine : Engine}
    {subtractions : List (WindowId × Epoch)} (abandoned : (s.setResetInput p true).abandonCurrent p = m)
    (units : m.port = Units.put s.port p (PortUnit.abandoned { s.port p with resetInput := true }))
    (sends : s.Sends m p ms)
    (frame : m = { s with
      ports := m.ports
      links := { s.links with
        toTable := m.links.toTable, engineToTable := s.links.engineToTable ++ subtractions }
      table := { s.table with walks := m.table.walks }
      engine := engine }) : s.ResetLeaves p ms engine subtractions := by
  have becomes := State.resetPort_becomes abandoned
  have request : m.requestOf p = s.requestOf p := by rw [frame]; rfl
  have unit : (m.port p).resetWith (m.requestOf p).isSome = (s.port p).wasReset (s.requestOf p).isSome := by
    rw [units, request, Units.put, if_pos rfl]
    rfl
  have put : ∀ x, Units.put (m.setReservation p none).port p x = Units.put s.port p x := fun x => by
    rw [State.port_congr (State.setReservation_ports m p none), units, Units.put_put]
  have sent : ∀ {t : State} {ns}, (m.setReservation p none).Sends t p ns → s.Sends t p (ms ++ ns) := fun h =>
    sends.trans (h.congr_left rfl rfl)
  rw [unit] at becomes
  refine ⟨_, exec_portReset released, fun ends => ?_, fun goesOn => ?_, becomes.frame.trans ?_⟩
  · obtain ⟨notice, port⟩ := becomes.met (PortUnit.wasReset_quiesceMet.2 ends)
    refine ⟨sent notice, ?_⟩
    rw [port, put, State.setReservation_requestOf_at, request]
  · obtain ⟨port, toTable, walks⟩ := becomes.unmet fun met => goesOn (PortUnit.wasReset_quiesceMet.1 met)
    exact ⟨sends.congr toTable walks, port.trans (put _)⟩
  · rw [frame]
    rfl

/-- An access that the table has not admitted, or none, is dropped (R174). -/
theorem portReset_unadmitted (unadmitted : ∀ a adm o, (s.port p).current ≠ .waiting a adm o)
    (offBus : ∀ a adm, (s.port p).current ≠ .onBus a adm) : s.ResetLeaves p [] s.engine [] := by
  have unit := s.setResetInput_port p true
  refine .of_abandoned released (State.abandonCurrent_unadmitted (by simpa [unit] using unadmitted)
    (by simpa [unit] using offBus)) ?_ (.nothing rfl rfl) ?_
  · simp [State.modifyPort_units, State.setResetInput]
  · simp [State.setResetInput, State.modifyPort_eq]

/-- An admitted access that was not granted leaves the waiting list, and its port sends its subtraction (R174). -/
theorem portReset_waiting {a : Access} {adm : Admission} {o : Bool} (waits : (s.port p).current = .waiting a adm o) :
    s.ResetLeaves p [.subtraction adm.window adm.epoch]
      { s.engine with waitingList := s.engine.waitingList.filter fun q => q ≠ p } [] := by
  let left := (s.resetIdle p).modifyEngine fun g => { g with waitingList := removePort p g.waitingList }
  have abandoned : (s.setResetInput p true).abandonCurrent p =
      left.sendToTable p (.subtraction adm.window adm.epoch) := by
    simp [State.abandonCurrent, waits, left, State.resetIdle, State.setResetInput]
  refine .of_abandoned released abandoned ?_ ?_ ?_
  · rw [State.port_congr (s := left) (by simp), PortUnit.abandoned_unsent (by simp [waits])]
    exact s.resetIdle_port p
  · exact (left.sendToTable_sends p _).congr_left (by simp [left, State.resetIdle]) (by simp [left, State.resetIdle])
  · rw [State.sendToTable_eq, ← removePort_eq]
    simp [left, State.resetIdle]

section
variable {a : Access} {adm : Admission} {r : BusAccess} (onBus : (s.port p).current = .onBus a adm)
  (access : s.engine.access = some r) (current : r.isCurrentOf p = true)
include onBus access current

/-- A part in progress runs to its ending, its access abandoned (R114). -/
theorem portReset_onBus {part : BusPart} (runs : s.engine.part = some part) :
    s.ResetLeaves p [] { s.engine with access := some { r with abandoned := true } } [] := by
  have abandoned : (s.setResetInput p true).abandonCurrent p = (s.resetIdle p).modifyEngine fun e =>
      { e with access := some { r with abandoned := true } } := by
    simp [State.abandonCurrent, State.abandonOnBus, onBus, State.resetIdle, State.setResetInput, access, current, runs]
  refine .of_abandoned released abandoned ?_ (.nothing rfl rfl) ?_
  · rw [PortUnit.abandoned_unsent (by simp [onBus])]
    exact s.resetIdle_port p
  · rw [List.append_nil]
    rfl

omit released in
/-- A retrying access is subtracted by the engine, and the arbiter makes its choices where the bus is free (R114). -/
theorem State.abandonCurrent_retrying (retries : s.engine.part = none) :
    (s.setResetInput p true).abandonCurrent p = (s.retryDropped p r).choose := by
  simp [State.abandonCurrent, State.abandonOnBus, onBus, State.setResetInput, access, current, retries]
  rfl

/-- Nothing is granted where the bus is held, or where nothing waits for it (R98). -/
theorem portReset_retrying (retries : s.engine.part = none)
    (settled : s.engine.holder ≠ .free ∨ (s.NoneElseWaits p ∧ s.NoEntry p)) :
    s.ResetLeaves p []
      { s.engine with access := none, retryWaiters := s.engine.retryWaiters.filter fun q => q ≠ p }
      [(r.window, r.epoch)] := by
  have chosen : (s.retryDropped p r).choose = s.retryDropped p r := by
    rcases settled with held | ⟨⟨unasked, none⟩, noEntry⟩
    · exact State.choose_busy held
    · refine State.choose_idle rfl unasked fun q candidate => ?_
      by_cases hq : q = p
      · subst hq
        rcases candidate with ⟨e, he, hp⟩ | ⟨b, badm, offered, -⟩
        · exact noEntry e he hp
        · simp [State.retryDropped_port, Units.put] at offered
      · exact none q hq (candidate.of_unit (by simp [State.retryDropped_port, Units.put, hq]) fun _ he _ => he)
  refine .of_abandoned released
    ((State.abandonCurrent_retrying onBus access current retries).trans chosen) ?_ (.nothing rfl rfl) ?_
  · rw [PortUnit.abandoned_unsent (by simp [onBus])]
    exact s.resetIdle_port p
  · rw [← removePort_eq]
    rfl

/-- At a free bus the choices are made among all that wait, before the rest of the unit is reset (R98, R114). -/
theorem portReset_chooses (retries : s.engine.part = none) (free : s.engine.holder = .free) :
    ∃ m t, exec (.portReset p) s = .next t ∧ State.Chooses (s.retryDropped p r) m ∧
      (m.setReservation p none).Becomes p ((s.port p).wasReset (s.requestOf p).isSome) t := by
  have becomes := State.resetPort_becomes (State.abandonCurrent_retrying onBus access current retries)
  refine ⟨_, _, exec_portReset released, State.choose_chooses free, ?_⟩
  have idle : (s.retryDropped p r).port p = { s.port p with resetInput := true, current := .idle } := by
    simp [State.retryDropped_port, Units.put]
  have kept := State.choose_leavesPort (s := s.retryDropped p r) (p := p)
    ⟨fun b badm offered => by rw [State.OffersAccess, idle] at offered; exact absurd offered.1 nofun,
      fun _ h => absurd h nofun⟩
  have number := (State.choose_chooses (s := s.retryDropped p r) free).number p
  have unit : ((s.retryDropped p r).choose.port p).resetWith ((s.retryDropped p r).choose.requestOf p).isSome =
      (s.port p).wasReset (s.requestOf p).isSome := by
    have request : (s.retryDropped p r).choose.requestOf p = s.requestOf p := by
      simp [State.requestOf, State.retryDropped, State.resetIdle]
    rw [idle] at number
    rw [request, kept.unit, idle, PortUnit.wasReset, PortUnit.abandoned_unsent (by simp [onBus])]
    simp only [PortUnit.resetWith, Slot.emptied, number]
    rfl
  rw [← unit]
  exact becomes

end

end

/-- Settles O49: the access is abandoned by its stage, and the rest of the reset is one change of the port's unit with the
quiesce condition evaluated (`State.resetPort_becomes`). -/
theorem portResetAbandonsTheAccess : Obligations.PortResetAbandonsTheAccess := by
  intro s p u untaken reset ends leaves
  have unit : (s.port p).wasReset (s.requestOf p).isSome = reset := by
    simp only [PortUnit.wasReset, PortUnit.resetWith, PortUnit.afterReset, PortState.afterReset_eq]
    rfl
  have meets : ∀ {ms engine subtractions}, s.ResetLeaves p ms engine subtractions → leaves ms engine subtractions :=
    fun h => by rw [State.ResetLeaves, unit] at h; exact h
  refine ⟨fun released => ⟨fun unadmitted offBus => meets (portReset_unadmitted released unadmitted offBus),
    fun a adm o waits => meets (portReset_waiting released waits), ?_⟩,
    fun asserted => congrArg _ (if_pos asserted), rfl⟩
  intro a adm r onBus access origin fromStore running
  have current : r.isCurrentOf p = true := by simp [BusAccess.isCurrentOf, origin, fromStore, running]
  refine ⟨fun runs => ?_, fun retries settled => ?_, fun retries free => ?_⟩
  · obtain ⟨part, runs⟩ := Option.ne_none_iff_exists'.1 runs
    exact meets (portReset_onBus released onBus access current runs)
  · exact meets (portReset_retrying released onBus access current retries settled)
  · obtain ⟨m, t, he, chooses, becomes⟩ := portReset_chooses released onBus access current retries free
    rw [unit] at becomes
    rw [State.retryDropped, removePort_eq] at chooses
    exact ⟨m, t, he, chooses, becomes⟩

end Sys2Proof.Machine
end

section
/-! The laws hold after every device reset, whatever the state before, and so in State.reset (R24, R177). -/

namespace Sys2Proof.Machine

/-- All the laws of the part. -/
def State.Lawful (s : State) : Prop :=
  s.LinesFollowRecords ∧ s.StoreWithinBounds ∧ s.AtMostOneMatch ∧ s.LinksFollowWindows ∧ s.PortsAccountForWork ∧
  s.PortZeroServes ∧ s.BusConsistent ∧ s.RecordsLegal ∧ s.UnitsLegal ∧ s.NoneLeftQuiesced ∧ s.ReservationsHaveRights

/-! ### What a device reset leaves -/

theorem exec_deviceReset (s : State) (st : Straps) :
    exec (.deviceReset st) s = .next (s.resetTaking st allPorts).choose := by
  rw [← s.deviceReset_taken]
  rfl

/-- A device reset of the part just reset, with the same straps, changes nothing. -/
theorem exec_deviceReset_reset : exec (.deviceReset lowStraps) State.reset = .next State.reset := by
  have again : State.reset.resetTaking lowStraps allPorts = State.reset := by
    refine State.eq_of_blocks (State.ports_eq_of_port fun p => ?_) rfl rfl rfl rfl rfl rfl
    rw [State.resetTaking_port]
    simp [State.reset, State.port, resetPortUnit]
  rw [exec_deviceReset, State.resetTaking_choose, again]
  rfl

section
variable {s t : State} {st : Straps} (h : exec (.deviceReset st) s = .next t)
include h

theorem execDeviceReset_records : t.table.records = resetRecords st := by
  rw [exec_deviceReset] at h
  rw [← Host.Outcome.next.inj h]
  simp [State.resetTaking, State.deviceReset, resetTable]

theorem execDeviceReset_atMostOneMatch : t.AtMostOneMatch := by
  have records := execDeviceReset_records h
  rintro p a v w ⟨b, hb, -⟩ ⟨c, hc, -⟩
  rw [(State.body_of_reset records hb).1, (State.body_of_reset records hc).1]

theorem execDeviceReset_recordsLegal : t.RecordsLegal :=
  (State.recordsLegal_iff t).2 fun _ _ hb => bootRecord_legal (State.body_of_reset (execDeviceReset_records h) hb).2

theorem execDeviceReset_unitsLegal : t.UnitsLegal := by
  rw [← Host.Outcome.next.inj h]
  exact (State.choose_follows _).units
    ((State.foldl_follows State.takeHeldReset State.takeHeldReset_follows allPorts _).units
      (s.deviceReset_unitsLegal st))

/-- No reservation is set, and the port resets and the choice set none (R134, R145). -/
theorem execDeviceReset_links : t.LinksFollowWindows ∧ t.ReservationsHaveRights := by
  have held := State.foldl_keepsLinks State.takeHeldReset (fun t p => (t.takeHeldReset_loosens p).keepsLinks) allPorts
    (s.deviceReset st)
  have keeps := held.trans (State.choose_loosens _).keepsLinks
  obtain ⟨links, rights⟩ := keeps (s.deviceReset_linksFollowWindows st)
  rw [← Host.Outcome.next.inj h]
  refine ⟨links, rights fun p r hr => ?_⟩
  rw [State.deviceReset_reservation] at hr
  cases hr

theorem exec_deviceReset_lawful : t.Lawful := by
  obtain ⟨links, rights⟩ := execDeviceReset_links h
  obtain ⟨accounts, zero, unmet⟩ := execDeviceReset_lawful h
  exact ⟨execDeviceReset_linesFollowRecords h, execDeviceReset_storeWithinBounds h, execDeviceReset_atMostOneMatch h,
    links, accounts, zero, execDeviceReset_busConsistent h, execDeviceReset_recordsLegal h,
    execDeviceReset_unitsLegal h, unmet, rights⟩

end

/-- Settles O60: a device reset sets the laws up from any state, and State.reset is what one leaves of itself. -/
theorem lawsHoldAfterReset : Obligations.LawsHoldAfterReset :=
  ⟨exec_deviceReset_lawful exec_deviceReset_reset, fun _ _ _ => exec_deviceReset_lawful⟩

end Sys2Proof.Machine
end

section
/-! The completion of a quiesce in the event that meets its condition (R127, R170, R171). -/

namespace Sys2Proof.Machine

/-- Port p, its unit being x but for this, has entered OFFLINE in the event i; the rest of the state is `base` (R171). -/
def State.GoesOffline (s : State) (p : PortId) (i : Instr) (x : PortUnit) (base : State) : Prop :=
  ∃ t, exec i s = .next t ∧ s.Sends t p [.offlineNotice] ∧
    t.port = (Units.put s.port p x).wentOffline p (s.requestOf p).isSome ∧
    t = { base with
      ports := t.ports
      links := { base.links with toTable := t.links.toTable }
      table := { base.table with walks := t.table.walks } }

theorem PortUnit.quiesceMet_answeredWith {u : PortUnit} (quiescing : u.state = .quiescing)
    (drained : u.occupancyCopy = 0) (a : Answer) (f : Option FaultInfo) : (u.answeredWith a f).QuiesceMet :=
  (PortUnit.quiesced_iff _).1 ((u.answeredWith_quiesced a f).2 ⟨quiescing, drained⟩)

section
variable {s m u t base : State} {p : PortId} {i : Instr} {x : PortUnit}

/-- The event changes, before port p's unit becomes x, what neither the units, the channels to the table nor the requests
show, and after it only the engine and its channel. -/
theorem State.GoesOffline.of_becomes (event : exec i s = .next t) (becomes : m.Becomes p x u) (met : x.QuiesceMet)
    (units : Units.put m.port p x = Units.put s.port p x) (toTable : m.links.toTable = s.links.toTable)
    (walks : m.table.walks = s.table.walks) (requests : m.links.requests = s.links.requests)
    (after : t.ports = u.ports ∧ t.links.toTable = u.links.toTable ∧ t.table.walks = u.table.walks)
    (frame : t = { base with
      ports := t.ports
      links := { base.links with toTable := t.links.toTable }
      table := { base.table with walks := t.table.walks } }) : s.GoesOffline p i x base := by
  obtain ⟨sends, port⟩ := becomes.met met
  obtain ⟨ports, sent, waits⟩ := after
  refine ⟨t, event, (sends.congr_left toTable walks).congr sent waits, ?_, frame⟩
  rw [State.port_congr ports, port, units]
  unfold State.requestOf
  rw [requests]

/-- A port whose unit becomes idle leaves nothing to grant, where nothing else waits (R98). -/
theorem State.Becomes.nothingWaits (becomes : m.Becomes p x u) (idle : x.current = .idle) (ports : t.ports = u.ports)
    (store : t.engine.store = m.engine.store) (none : ∀ q, q ≠ p → ¬ m.HasCandidate q) (noEntry : m.NoEntry p)
    (q : PortId) : ¬ t.HasCandidate q := by
  have current : (t.port q).current = (Units.put m.port p x q).current := by
    rw [State.port_congr ports]
    by_cases met : x.QuiesceMet
    · rw [(becomes.met met).2, Units.wentOffline_current]
    · rw [(becomes.unmet met).1]
  rintro (⟨e, he, hq⟩ | ⟨a, adm, offered, posted⟩)
  · rw [store] at he
    by_cases hqp : q = p
    · exact noEntry e he (hq.trans hqp)
    · exact none q hqp (.inl ⟨e, he, hq⟩)
  · rw [offered] at current
    by_cases hqp : q = p
    · rw [Units.put, if_pos hqp, idle] at current
      cases current
    · rw [Units.put, if_neg hqp] at current
      exact none q hqp (.inr ⟨a, adm, current.symm, posted⟩)

end

section
variable {s : State} {p : PortId}

/-! ### The report that an entry has finished (R127) -/

/-- The units and the report channel once port p has taken a report. -/
theorem exec_entryFinishedReport {s : State} {p : PortId} {n : Nat} (reported : s.links.reports.get p = n + 1) :
    ∃ t, exec (.entryFinishedReport p) s = .next t ∧
      State.Becomes { s with links := { s.links with reports := vput s.links.reports p n } } p
        { s.port p with occupancyCopy := (s.port p).occupancyCopy - 1 } t := by
  refine ⟨_, ?_, State.evaluateQuiesce_becomes
    { s with links := { s.links with reports := vput s.links.reports p n } } p
    fun u => { u with occupancyCopy := u.occupancyCopy - 1 }⟩
  simp [exec, execEntryFinishedReport, reported]

/-! ### A park's end, and a DENY or NONE answer (R39, R40, R43) -/

theorem Units.put_self (us : Units) (p : PortId) : us.put p (us p) = us := by
  funext q
  by_cases hq : q = p <;> simp [Units.put, hq]

/-- An access ends, in a state with the units, the channels to the table and the requests of s but for the unit y. -/
theorem State.GoesOffline.of_endCurrent {m base : State} {i : Instr} {a : Answer} {f : Option FaultInfo} {y : PortUnit}
    (event : exec i s = .next (m.endCurrent p a f)) (quiescing : y.state = .quiescing)
    (drained : y.occupancyCopy = 0) (units : m.port = Units.put s.port p y)
    (toTable : m.links.toTable = s.links.toTable) (walks : m.table.walks = s.table.walks)
    (requests : m.links.requests = s.links.requests)
    (same : ∀ ports, ({ m with ports := ports } : State) = { base with ports := ports }) :
    s.GoesOffline p i (y.answeredWith a f) base := by
  have becomes := m.endCurrent_becomes p a f
  have unit : m.port p = y := by rw [units, Units.put, if_pos rfl]
  rw [unit] at becomes
  refine .of_becomes event becomes (PortUnit.quiesceMet_answeredWith quiescing drained a f) ?_ toTable walks requests
    ⟨rfl, rfl, rfl⟩ (becomes.frame.trans ?_)
  · rw [units, Units.put_put]
  · exact congrArg (fun v : State => { v with
      links := { v.links with toTable := (m.endCurrent p a f).links.toTable }
      table := { v.table with walks := (m.endCurrent p a f).table.walks } }) (same (m.endCurrent p a f).ports)

variable (quiescing : (s.port p).state = .quiescing) (drained : (s.port p).occupancyCopy = 0)
include quiescing drained

theorem parkTimerExpiry_goesOffline (expired : (s.port p).current.expired = true) :
    s.GoesOffline p (.parkTimerExpiry p) ((s.port p).answered .retry) s := by
  have taken : exec (.parkTimerExpiry p) s = .next (s.endCurrent p .retry none) := congrArg _ (if_pos expired)
  exact .of_endCurrent taken quiescing drained (Units.put_self _ p).symm rfl rfl rfl fun _ => rfl

section
variable {m : TableMessage} {rest : List TableMessage} (first : s.toPort p = m :: rest)
include first

theorem retireNotice_goesOffline {a : Access} {w : WindowId} {x : Timer} (notice : m = .retireNotice w)
    (parked : (s.port p).current = .parked a w x) :
    s.GoesOffline p (.retireNotice p) ((s.port p).answered .retry)
      { s with links := { s.links with toPort := vput s.links.toPort p rest } } := by
  have taken : exec (.retireNotice p) s = .next ((s.setToPort p rest).endCurrent p .retry none) := by
    rw [← State.takeRetire_parked (s := s.setToPort p rest) parked]
    simp only [exec, execRetireNotice, first, notice]
  exact .of_endCurrent taken quiescing drained (Units.put_self _ p).symm rfl rfl rfl fun _ => rfl

variable {a : Access} (walks : (s.port p).current = .walking a true) (fresh : (s.port p).staleWalk = false)
include walks fresh

theorem noneAnswer_goesOffline (answer : m = .noWindow) :
    s.GoesOffline p (.noneAnswer p) (((s.port p).answered .error).offered (matchFaultOf a .noWindow none))
      { s with links := { s.links with toPort := vput s.links.toPort p rest } } := by
  have taken := exec_noneAnswer (answer ▸ first)
  rw [State.takeNoWindow_walking (s := s.setToPort p rest) walks fresh] at taken
  exact .of_endCurrent taken quiescing drained (Units.put_self _ p).symm rfl rfl rfl fun _ => rfl

theorem denyAnswer_goesOffline {c : Copy} {k : FaultKind} (answer : m = .denied c k) :
    s.GoesOffline p (.denyAnswer p)
      ((PortUnit.answered { s.port p with lookaside := (s.port p).lookaside.install c } .error).offered
        (matchFaultOf a k (some c.window)))
      { s with links := { s.links with toPort := vput s.links.toPort p rest } } := by
  have taken := exec_denyAnswer (answer ▸ first)
  rw [State.takeDenied_walking (s := s.setToPort p rest) walks fresh] at taken
  exact .of_endCurrent taken (y := { s.port p with lookaside := (s.port p).lookaside.install c }) quiescing drained
    (State.modifyPort_units _ p _) rfl rfl rfl fun _ => rfl

end

/-! ### A finish on the bus (R108 to R112) -/

section
variable {r : BusAccess} {reservations : Vector (Option Reservation) 6} {i : Instr} {a : Answer} {f : Option FaultInfo}

/-- The access r of port p finishes, with these reservations left, and nothing waits for the bus. -/
theorem State.GoesOffline.of_finishAccess {e : Engine} (origin : r.origin = p)
    (event : exec i s = .next (State.finishAccess
      { s with engine := e, monitor := { s.monitor with reservations := reservations } } r a f).choose)
    (dropped : e.dropAccess = s.engine.idled) (alone : s.NoneElseWaits p) (noEntry : s.NoEntry p) :
    s.GoesOffline p i ((s.port p).answeredWith a f)
      { s with
        links := { s.links with engineToTable := s.links.engineToTable ++ [(r.window, r.epoch)] }
        engine := s.engine.idled
        monitor := { s.monitor with reservations := reservations } } := by
  let reported : State := { s with monitor := { s.monitor with reservations := reservations } }
  obtain ⟨u, becomes, finished⟩ := reported.finishAccess_accessOver (e := e) r a f dropped
  rw [origin] at becomes
  have unchosen : (reported.accessOver u r).choose = reported.accessOver u r :=
    State.choose_idle rfl alone.1
      (becomes.nothingWaits (PortUnit.answeredWith_current _ a f) rfl rfl alone.2 noEntry)
  have event : exec i s = .next (reported.accessOver u r) := by
    rw [event, ← unchosen, ← finished]
  exact .of_becomes event becomes (PortUnit.quiesceMet_answeredWith quiescing drained a f) rfl rfl rfl rfl
    ⟨rfl, rfl, rfl⟩ (congrArg (fun v : State => { v with
      links := { v.links with engineToTable := s.links.engineToTable ++ [(r.window, r.epoch)] }
      engine := s.engine.idled }) becomes.frame)

end

section
variable {r : BusAccess} {b : Access} {adm : Admission} (presents : s.Presents r) (origin : r.origin = p)
  (fromPort : r.fromStore = false) (alone : s.NoneElseWaits p) (noEntry : s.NoEntry p)
include presents origin fromPort alone noEntry

theorem partAck_goesOffline (lanes : Word) (last : r.partsTotal ≤ r.partsDone + 1) :
    s.GoesOffline p (.partAck lanes s.engine.presented) ((s.port p).answered (doneAnswer r lanes))
      { s with
        links := { s.links with engineToTable := s.links.engineToTable ++ [(r.window, r.epoch)] }
        engine := s.engine.idled
        monitor := { s.monitor with reservations := s.reservationsDone r } } := by
  have event := exec_partAck_presents presents lanes
  rw [State.partCompleted_last fromPort last] at event
  exact .of_finishAccess quiescing drained origin event rfl alone noEntry

theorem failure_goesOffline (onBus : (s.port p).current = .onBus b adm) {i : Instr} {k : FaultKind}
    (ends : s.EndsInFailure r i k) :
    s.GoesOffline p i (((s.port p).answered .error).offered (busFaultOf k r b))
      { s with
        links := { s.links with engineToTable := s.links.engineToTable ++ [(r.window, r.epoch)] }
        engine := s.engine.idled } := by
  obtain ⟨n, event⟩ := exec_fails presents ends
  have failed : (s.modifyEngine Engine.endPart).failAccess { r with retryCount := n } k =
      ((s.modifyEngine Engine.endPart).finishAccess { r with retryCount := n } .error
        (some (busFaultOf k r b))).choose := by
    have onBus : ((s.modifyEngine Engine.endPart).port r.origin).current = .onBus b adm := origin ▸ onBus
    rw [State.failAccess, if_neg (by simp [fromPort]), onBus]
    rfl
  rw [failed] at event
  exact .of_finishAccess (r := { r with retryCount := n }) quiescing drained origin event rfl alone noEntry

end

end

/-! ### A LINK_FAILED at a grant (R112, R113) -/

section
variable {s : State} {p : PortId} {r : BusAccess} {c : CurrentAccess} (free : s.engine.holder = .free)
  (unasked : s.engine.extRequest = false) (first : s.GrantsFirst p) (record : s.GrantRecord p r c)
include free unasked first record

/-- A conditional write that alone waits is answered LINK_FAILED, whatever that makes of its port. -/
theorem State.choose_linkFailed (conditional : r.kind = .conditionalWrite) (unheld : ¬ s.HoldsGranule p r.sysAddr)
    (noEntry : s.NoEntry p) (none : ∀ q, q ≠ p → ¬ s.HasCandidate q) :
    ∃ t, s.Becomes p ((s.port p).answered .linkFailed) t ∧ s.choose = s.linkFailure t p r := by
  rw [State.choose_port free unasked (State.chosenPort_iff.2 first)]
  obtain ⟨r', c', record', outcome⟩ := State.grant_cases first
  obtain ⟨rfl, rfl⟩ := record.unique record'
  rcases outcome with ⟨other, -⟩ | ⟨-, held, -⟩ | ⟨-, -, t, becomes, granted⟩
  · exact absurd conditional other
  · exact absurd held unheld
  · have engine : t.engine = s.engine := becomes.blocks.1
    have nothing := becomes.nothingWaits (t := s.linkFailure t p r) rfl rfl
      (show t.engine.store = s.engine.store by rw [engine]) none noEntry
    have idle : (s.linkFailure t p r).chosenPort = Option.none :=
      State.chosenPort_none_iff.2 fun q hq => nothing q ((State.competes_iff rfl).1 hq.1).1
    have settled : (s.linkFailure t p r).engine.extRequest = false := (congrArg Engine.extRequest engine).trans unasked
    refine ⟨t, becomes, ?_⟩
    rw [granted]
    exact State.arbitrate_idle settled idle 6

end

/-- An engine without a record, at a free bus, is left so by a LINK_FAILED. -/
theorem Engine.withRotation {e : Engine} (free : e.holder = .free) (empty : e.access = none) (order : List PortId) :
    { e with rotation := order, access := none, holder := .free } = { e with rotation := order } := by
  cases e
  subst free empty
  rfl

/-- The state in which the copy of an ADMIT answer is installed and its access waits to be granted (R35, R38). -/
def State.admittedWaits (s : State) (p : PortId) (c : Copy) (a : Access) (rest : List TableMessage) : State :=
  { s with
    ports := vput s.ports p { s.port p with
      lookaside := (s.port p).lookaside.install c, current := .waiting a (admissionOf c a) true }
    links := { s.links with toPort := vput s.links.toPort p rest } }

theorem State.admittedWaits_port (s : State) (p : PortId) (c : Copy) (a : Access) (rest : List TableMessage) :
    (s.admittedWaits p c a rest).port = Units.put s.port p { s.port p with
      lookaside := (s.port p).lookaside.install c, current := .waiting a (admissionOf c a) true } :=
  State.modifyPort_units s p fun u =>
    { u with lookaside := u.lookaside.install c, current := .waiting a (admissionOf c a) true }

section
variable {s : State} {p : PortId} {c : Copy} {rest : List TableMessage} {a : Access}
  (first : s.toPort p = .admitted c :: rest) (walks : (s.port p).current = .walking a true)
  (fresh : (s.port p).staleWalk = false) (conditional : a.kind = .conditionalWrite)
include conditional

theorem admissionOf_conditional : (admissionOf c a).posted = false := by
  simp [admissionOf, conditional]

include first walks fresh

theorem exec_admitAnswer_conditional :
    exec (.admitAnswer p) s = .next (s.admittedWaits p c a rest).choose := by
  rw [exec_admitAnswer first, State.takeAdmitted_walking (s := s.setToPort p rest) walks fresh,
    State.dropForLinkedRead_eq, if_neg (by simp [conditional])]
  unfold State.offer
  rw [if_neg (by simp [admissionOf_conditional conditional])]
  simp [State.admittedWaits, State.setToPort, State.modifyPort_eq, State.port]

/-- The waiting conditional write is the only candidate, without a reservation on its granule. -/
theorem admitAnswer_goesOffline (quiescing : (s.port p).state = .quiescing)
    (drained : (s.port p).occupancyCopy = 0) (alone : s.NoneElseWaits p) (noEntry : s.NoEntry p)
    (free : s.engine.holder = .free) (empty : s.engine.access = none) (ready : p ∉ s.engine.retryWaiters)
    (rotation : p ∈ s.engine.rotation) (unheld : ¬ s.HoldsGranule p (admissionOf c a).sysAddr) :
    s.GoesOffline p (.admitAnswer p)
      (PortUnit.answered { s.port p with lookaside := (s.port p).lookaside.install c } .linkFailed)
      { s with
        links := { s.links with
          engineToTable := s.links.engineToTable ++ [((admissionOf c a).window, (admissionOf c a).epoch)]
          toPort := vput s.links.toPort p rest }
        engine := { s.engine with rotation := servedOrder s.engine.rotation p } } := by
  let waits := s.admittedWaits p c a rest
  have unit : waits.port p = { s.port p with
      lookaside := (s.port p).lookaside.install c, current := .waiting a (admissionOf c a) true } := by
    rw [State.admittedWaits_port, Units.put, if_pos rfl]
  have recordless : waits.engine.access = Option.none := empty
  have offers : waits.OffersAccess p a (admissionOf c a) :=
    ⟨congrArg PortUnit.current unit, admissionOf_conditional conditional⟩
  have none : ∀ q, q ≠ p → ¬ waits.HasCandidate q := fun q hq candidate =>
    alone.2 q hq (candidate.of_unit (by rw [State.admittedWaits_port, Units.put, if_neg hq]) fun _ he _ => he)
  have granted : waits.GrantsFirst p := by
    refine State.grantsFirst_alone ((State.competes_iff recordless).2 ⟨.inr ⟨_, _, offers⟩, ready⟩) rotation
      fun q competes => ?_
    by_contra other
    exact none q other ((State.competes_iff recordless).1 competes).1
  obtain ⟨t, becomes, chosen⟩ := State.choose_linkFailed (s := waits) free alone.1 granted
    (.inr (.inr ⟨recordless, noEntry, a, _, offers, rfl, rfl⟩)) conditional unheld noEntry none
  have event := exec_admitAnswer_conditional first walks fresh conditional
  rw [chosen] at event
  rw [unit] at becomes
  refine .of_becomes event becomes ⟨quiescing, rfl, drained⟩ ?_ rfl rfl rfl ⟨rfl, rfl, rfl⟩ ?_
  · rw [State.admittedWaits_port, Units.put_put]
  · rw [← Engine.withRotation free empty]
    exact congrArg (fun v : State => { v with
      links := { v.links with
        engineToTable := v.links.engineToTable ++ [((admissionOf c a).window, (admissionOf c a).epoch)] }
      engine := { v.engine with
        rotation := servedOrder s.engine.rotation p, access := Option.none, holder := .free } }) becomes.frame

end

/-- Settles O48: each of the events ends in a change of the port's unit with the quiesce condition evaluated
(`State.GoesOffline.of_becomes`), and no event leaves a condition met (`noneLeftQuiesced_isKept`). -/
theorem quiesceCompletesInTheEvent : Obligations.QuiesceCompletesInTheEvent := by
  refine ⟨noneLeftQuiesced_isKept, fun s p => ?_⟩
  intro u goesOffline
  refine ⟨fun n reported => ?_, fun quiescing drained => ⟨fun a w n k parked ranOut => ?_, fun m rest first => ?_,
    fun alone noEntry a adm => ?_⟩⟩
  · intro base x
    obtain ⟨t, event, becomes⟩ := exec_entryFinishedReport reported
    exact ⟨fun unmet => event.trans (congrArg _ (becomes.1 unmet)),
      fun met => State.GoesOffline.of_becomes event becomes met rfl rfl rfl rfl ⟨rfl, rfl, rfl⟩ becomes.frame⟩
  · have expired : (s.port p).current.expired = true := parked ▸ decide_eq_true ranOut
    exact parkTimerExpiry_goesOffline quiescing drained expired
  · exact ⟨fun a w x notice parked => retireNotice_goesOffline quiescing drained first notice parked,
      fun a walks fresh => ⟨fun answer => noneAnswer_goesOffline quiescing drained first walks fresh answer,
        fun c k answer => denyAnswer_goesOffline quiescing drained first walks fresh answer⟩⟩
  · refine ⟨fun r presents origin fromPort onBus => ⟨fun lanes last => ?_, fun i k ends => ?_⟩,
      fun free empty ready rotation c rest first walks fresh admitted conditional unheld => ?_⟩
    · exact partAck_goesOffline quiescing drained presents origin fromPort alone noEntry lanes last
    · exact failure_goesOffline quiescing drained presents origin fromPort alone noEntry onBus ends
    · subst admitted
      exact admitAnswer_goesOffline first walks fresh conditional quiescing drained alone noEntry free empty ready
        rotation unheld

end Sys2Proof.Machine
end

section
/-! The fields of a word (R182): a word laid out in fields that stand one above the other and fit their widths gives
each of them back, so that a layout of 10.2 or 10.4 is read field by field. -/

namespace Sys2Proof.Machine

/-! ### Fields and bits read from a word -/

theorem field_eq_extract (w : Word) (lo n : Nat) : field w lo n = (w.extractLsb' lo n).toNat := by
  rw [field, BitVec.extractLsb'_toNat, Nat.shiftRight_eq_div_pow]

@[simp] theorem bit_false : bit false = 0 := rfl

@[simp] theorem bit_true : bit true = 1 := rfl

@[simp] theorem bit_le_one (b : Bool) : bit b ≤ 1 := by cases b <;> decide

@[simp] theorem epoch_le_one (e : Epoch) : e.val ≤ 1 := Nat.le_of_lt_succ e.isLt

theorem halfword_lt (v : BitVec 16) : v.toNat < 65536 := v.isLt

theorem bit_injective {a b : Bool} (h : bit a = bit b) : a = b := by
  cases a <;> cases b <;> simp_all [bit]

/-- A field of one bit is that bit. -/
theorem toNat_extract_one (w : Word) (k : Nat) : (w.extractLsb' k 1).toNat = bit (w.getLsbD k) := by
  rw [BitVec.extractLsb'_toNat, BitVec.getLsbD, Nat.testBit_eq_decide_div_mod_eq, Nat.shiftRight_eq_div_pow, bit]
  have : w.toNat / 2 ^ k % 2 < 2 := Nat.mod_lt _ (by decide)
  simp only [Nat.pow_one, decide_eq_true_eq]
  split <;> omega

/-- The fields of a number survive where its low 32 bits are kept. -/
theorem toNat_extract_ofNat (x : Nat) {lo n : Nat} (room : lo + n ≤ 32) :
    ((BitVec.ofNat 32 x).extractLsb' lo n).toNat = x / 2 ^ lo % 2 ^ n := by
  have cut : x % 2 ^ 32 / 2 ^ lo = x / 2 ^ lo % 2 ^ (32 - lo) := by
    rw [← Nat.mod_mul_right_div_self, ← Nat.pow_add, Nat.add_sub_of_le (by omega)]
  rw [BitVec.extractLsb'_toNat, BitVec.toNat_ofNat, Nat.shiftRight_eq_div_pow, cut,
    Nat.mod_mod_of_dvd _ (Nat.pow_dvd_pow 2 (by omega))]

/-! ### A word laid out in fields -/

/-- A field of a word: its lowest bit, its width and what it holds. -/
structure BitField where
  lo : Nat
  width : Nat
  value : Nat

/-- The number with these fields. -/
def total : List BitField → Nat
  | [] => 0
  | f :: fields => f.value * 2 ^ f.lo + total fields

/-- The fields stand one above the other from bit `base` up and end below bit `top`, and what each holds fits its
width. -/
def LaidOut (base top : Nat) : List BitField → Prop
  | [] => base ≤ top
  | f :: fields => base ≤ f.lo ∧ f.value < 2 ^ f.width ∧ LaidOut (f.lo + f.width) top fields

theorem total_append (fields above : List BitField) : total (fields ++ above) = total fields + total above := by
  induction fields with
  | nil => exact (Nat.zero_add _).symm
  | cons f fields ih => rw [List.cons_append, total, total, ih, Nat.add_assoc]

/-- More fields above. -/
theorem LaidOut.append {m top : Nat} {fields above : List BitField} (upper : LaidOut m top above) :
    ∀ {base : Nat}, LaidOut base m fields → LaidOut base top (fields ++ above) := by
  induction fields with
  | nil =>
    intro base room
    cases above with
    | nil => exact room.trans upper
    | cons g above => exact ⟨room.trans upper.1, upper.2⟩
  | cons f fields ih => exact fun ⟨starts, fits, lower⟩ => ⟨starts, fits, ih lower⟩

theorem LaidOut.below_top {base top : Nat} {fields : List BitField} (laid : LaidOut base top fields) :
    base ≤ top ∧ ∀ f ∈ fields, f.lo + f.width ≤ top := by
  induction fields generalizing base with
  | nil => exact ⟨laid, by simp⟩
  | cons f fields ih =>
    obtain ⟨starts, -, laid⟩ := laid
    obtain ⟨room, below⟩ := ih laid
    exact ⟨(starts.trans (Nat.le_add_right _ _)).trans room, List.forall_mem_cons.2 ⟨room, below⟩⟩

/-- What stands from bit `base` up is a multiple of 2 to the power `base`. -/
theorem LaidOut.dvd {base top : Nat} (rest : Nat) {fields : List BitField} (laid : LaidOut base top fields) :
    2 ^ base ∣ total fields + 2 ^ top * rest := by
  induction fields generalizing base with
  | nil => exact Nat.dvd_add (Nat.dvd_zero _) (Dvd.dvd.mul_right (Nat.pow_dvd_pow 2 laid) _)
  | cons f fields ih =>
    obtain ⟨starts, -, laid⟩ := laid
    rw [total, Nat.add_assoc]
    exact Nat.dvd_add (Dvd.dvd.mul_left (Nat.pow_dvd_pow 2 starts) _)
      ((Nat.pow_dvd_pow 2 (starts.trans (Nat.le_add_right _ _))).trans (ih laid))

/-- Each field is read back, whatever stands below the fields and above them. -/
theorem LaidOut.total_field {base top low : Nat} (rest : Nat) {fields : List BitField}
    (laid : LaidOut base top fields) (under : low < 2 ^ base) :
    ∀ f ∈ fields, (low + total fields + 2 ^ top * rest) / 2 ^ f.lo % 2 ^ f.width = f.value := by
  induction fields generalizing base low with
  | nil => simp
  | cons f fields ih =>
    obtain ⟨starts, fits, laid⟩ := laid
    have lowest : low < 2 ^ f.lo := under.trans_le (Nat.pow_le_pow_right (by decide) starts)
    rw [List.forall_mem_cons, total]
    constructor
    · obtain ⟨m, above⟩ := laid.dvd rest
      have shape : low + (f.value * 2 ^ f.lo + total fields) + 2 ^ top * rest =
          low + 2 ^ f.lo * (f.value + 2 ^ f.width * m) := by
        rw [Nat.pow_add] at above
        linear_combination above
      rw [shape, Nat.add_mul_div_left _ _ (Nat.two_pow_pos _), Nat.div_eq_of_lt lowest, Nat.zero_add,
        Nat.add_mul_mod_self_left, Nat.mod_eq_of_lt fits]
    · have covered : low + f.value * 2 ^ f.lo < 2 ^ (f.lo + f.width) := by
        rw [Nat.pow_add]
        nlinarith
      simpa only [Nat.add_assoc] using ih laid covered

/-- The word holds these fields. -/
def Holds (w : Word) (fields : List BitField) : Prop := ∀ f ∈ fields, (w.extractLsb' f.lo f.width).toNat = f.value

/-- A number's lowest fields, whatever stands above them. -/
theorem LaidOut.holds_below {top : Nat} {fields : List BitField} (laid : LaidOut 0 top fields) (room : top ≤ 32)
    (rest : Nat) : Holds (BitVec.ofNat 32 (total fields + 2 ^ top * rest)) fields := fun f hf => by
  have read := laid.total_field rest Nat.one_pos f hf
  rw [toNat_extract_ofNat _ ((laid.below_top.2 f hf).trans room), ← read, Nat.zero_add]

/-- A word whose number is that of the fields. -/
theorem LaidOut.holds {fields : List BitField} (laid : LaidOut 0 32 fields) {x : Nat} (number : x = total fields) :
    Holds (BitVec.ofNat 32 x) fields :=
  number ▸ laid.holds_below le_rfl 0

theorem Holds.lower {w : Word} {lower upper : List BitField} (holds : Holds w (lower ++ upper)) : Holds w lower :=
  fun f hf => holds f (List.mem_append_left upper hf)

theorem Holds.upper {w : Word} {lower upper : List BitField} (holds : Holds w (lower ++ upper)) : Holds w upper :=
  fun f hf => holds f (List.mem_append_right lower hf)

section
variable {w : Word} {fields : List BitField} (holds : Holds w fields) (k : Nat) {lo n : Nat}
include holds

/-- Field k of the word. -/
theorem Holds.field {v : Nat} (h : fields[k]? = some ⟨lo, n, v⟩) : (w.extractLsb' lo n).toNat = v :=
  holds _ (List.mem_of_getElem? h)

/-- A flag among the fields. -/
theorem Holds.flag {b : Bool} (h : fields[k]? = some ⟨lo, 1, bit b⟩) : w.getLsbD lo = b :=
  bit_injective ((toNat_extract_one w lo).symm.trans (holds.field k h))

/-- A field whose value is a word of its own. -/
theorem Holds.bits {v : BitVec n} (h : fields[k]? = some ⟨lo, n, v.toNat⟩) : w.extractLsb' lo n = v :=
  BitVec.eq_of_toNat_eq (holds.field k h)

end

/-! ### One field for each port -/

/-- A field of n bits for each port, from I0 up. -/
def portFields (n : Nat) (f : PortId → Nat) : List BitField := allPorts.map fun p => ⟨n * p.val, n, f p⟩

theorem portFields_laidOut {n top : Nat} {f : PortId → Nat} (room : 6 * n ≤ top) (fit : ∀ p, f p < 2 ^ n) :
    LaidOut 0 top (portFields n f) := by
  simp only [portFields, allPorts, List.map, LaidOut, fit, true_and]
  omega

theorem total_portFields (n : Nat) (f : PortId → Nat) :
    total (portFields n f) = f 0 + f 1 * 2 ^ n + f 2 * 2 ^ (2 * n) + f 3 * 2 ^ (3 * n) + f 4 * 2 ^ (4 * n)
      + f 5 * 2 ^ (5 * n) := by
  show f 0 * 2 ^ (n * 0) + (f 1 * 2 ^ (n * 1) + (f 2 * 2 ^ (n * 2) + (f 3 * 2 ^ (n * 3) + (f 4 * 2 ^ (n * 4)
    + (f 5 * 2 ^ (n * 5) + 0))))) = _
  ring

/-- Port p's field. -/
theorem Holds.port {w : Word} {n : Nat} {f : PortId → Nat} (holds : Holds w (portFields n f)) (p : PortId) :
    (w.extractLsb' (n * p.val) n).toNat = f p :=
  holds ⟨n * p.val, n, f p⟩ (List.mem_map.2 ⟨p, mem_allPorts p, rfl⟩)

/-- Port p's flag in a set of ports. -/
theorem Holds.portFlag {w : Word} {f : PortId → Bool} (holds : Holds w (portFields 1 fun p => bit (f p))) (p : PortId) :
    w.getLsbD p.val = f p := by
  have read := holds.port p
  rw [Nat.one_mul, toNat_extract_one] at read
  exact bit_injective read

/-! ### Q0 to Q4 -/

section
variable (q0 q1 q2 q3 q4 : Nat)

@[simp] theorem wordsOf_get_zero : (wordsOf q0 q1 q2 q3 q4).get 0 = BitVec.ofNat 32 q0 := ofFn_get _ 0

@[simp] theorem wordsOf_get_one : (wordsOf q0 q1 q2 q3 q4).get 1 = BitVec.ofNat 32 q1 := ofFn_get _ 1

@[simp] theorem wordsOf_get_two : (wordsOf q0 q1 q2 q3 q4).get 2 = BitVec.ofNat 32 q2 := ofFn_get _ 2

@[simp] theorem wordsOf_get_three : (wordsOf q0 q1 q2 q3 q4).get 3 = BitVec.ofNat 32 q3 := ofFn_get _ 3

@[simp] theorem wordsOf_get_four : (wordsOf q0 q1 q2 q3 q4).get 4 = BitVec.ofNat 32 q4 := ofFn_get _ 4

end

/-- A system address in two words: its low 32 bits in one, its high 4 in the lowest field of the other. -/
theorem append_of_halves {a : SysAddr} {high : Word} (h : (high.extractLsb' 0 4).toNat = a.toNat / 2 ^ 32) :
    high.extractLsb' 0 4 ++ BitVec.ofNat 32 (a.toNat % 2 ^ 32) = a := by
  apply BitVec.eq_of_toNat_eq
  rw [BitVec.toNat_append, h, BitVec.toNat_ofNat, Nat.mod_mod, Nat.shiftLeft_eq, Nat.mul_comm,
    ← Nat.two_pow_add_eq_or_of_lt (Nat.mod_lt _ (by decide))]
  exact Nat.div_add_mod _ _

theorem append_of_words (a : SysAddr) :
    (BitVec.ofNat 32 (a.toNat / 2 ^ 32)).extractLsb' 0 4 ++ BitVec.ofNat 32 (a.toNat % 2 ^ 32) = a := by
  refine append_of_halves ?_
  rw [toNat_extract_ofNat _ (by decide), Nat.pow_zero, Nat.div_one]
  exact Nat.mod_eq_of_lt (Nat.div_lt_of_lt_mul a.isLt)

end Sys2Proof.Machine
end

section
/-! A fault record in Q0 to Q4 (R189), field by field. -/

namespace Sys2Proof.Machine

/-- The fields of Q0 for a fault record: the present bit and kind, the access, the bits that say which fields are
present, and those fields (R189). -/
def faultFields (f : FaultInfo) (origin : Option PortId) : List BitField :=
  [⟨0, 1, 1⟩, ⟨1, 3, f.kind.code⟩, ⟨4, 1, bit f.deferred⟩, ⟨5, 2, f.accessKind.code⟩, ⟨7, 2, f.size.code⟩,
    ⟨9, 1, bit (f.cls == .fetch)⟩, ⟨10, 1, bit (f.level == .privileged)⟩, ⟨11, 1, bit f.localAddr.isSome⟩,
    ⟨12, 1, bit f.window.isSome⟩, ⟨13, 1, bit f.sysAddr.isSome⟩, ⟨14, 1, bit f.parts.isSome⟩,
    ⟨15, 1, bit origin.isSome⟩, ⟨16, 6, f.window.elim 0 Fin.val⟩, ⟨22, 2, f.parts.elim 0 Prod.fst⟩,
    ⟨24, 3, f.parts.elim 0 Prod.snd⟩, ⟨27, 3, origin.elim 0 Fin.val⟩]

theorem optionFin_lt {n : Nat} (o : Option (Fin n)) (h : 0 < n) : o.elim 0 Fin.val < n := by
  cases o with
  | none => exact h
  | some i => exact i.isLt

theorem FaultKind.code_lt (k : FaultKind) : k.code < 8 := by cases k <;> decide

theorem accessKind_code_lt (k : AccessKind) : k.code < 4 := by cases k <;> decide

theorem accessSize_code_lt (x : AccessSize) : x.code < 4 := by cases x <;> decide

/-- The part counts, where present, fit two and three bits (R103). -/
theorem faultFields_laidOut {f : FaultInfo} (origin : Option PortId)
    (parts : ∀ n m, f.parts = some (n, m) → n < 4 ∧ m < 8) : LaidOut 0 32 (faultFields f origin) := by
  have window : f.window.elim 0 Fin.val < 64 := optionFin_lt _ (by decide)
  have origin : origin.elim 0 Fin.val < 8 := (optionFin_lt origin (by decide)).trans (by decide)
  have counts : f.parts.elim 0 Prod.fst < 4 ∧ f.parts.elim 0 Prod.snd < 8 := by
    rcases h : f.parts with _ | ⟨n, m⟩
    · decide
    · exact parts n m h
  simp [LaidOut, faultFields, FaultKind.code_lt, accessKind_code_lt, accessSize_code_lt, window, counts, origin]

theorem faultWords_holds {f : FaultInfo} (origin : Option PortId) (overflow : Nat)
    (parts : ∀ n m, f.parts = some (n, m) → n < 4 ∧ m < 8) :
    Holds ((faultWords (some f) origin overflow).get 0) (faultFields f origin) := by
  dsimp only [faultWords]
  rw [wordsOf_get_zero]
  exact (faultFields_laidOut origin parts).holds (by dsimp only [faultFields, total]; ring)

/-- Settles O34: each field of Q0 by its place among `faultFields`, the system address by its two halves. -/
theorem faultRecordLayout : Obligations.FaultRecordLayout := by
  intro f origin overflow bound parts q q0
  have holds : Holds q0 (faultFields f origin) := faultWords_holds origin overflow parts
  have counted : (BitVec.ofNat 32 overflow).toNat = overflow := Nat.mod_eq_of_lt (by omega)
  refine ⟨holds.flag 0 rfl, ?_, holds.flag 2 rfl, ?_, ?_, ?_, ?_, holds.flag 7 rfl, holds.flag 8 rfl,
    holds.flag 9 rfl, holds.flag 10 rfl, holds.flag 11 rfl, ?_, ?_, ?_, ?_, ?_, counted, counted, rfl⟩
  · rw [holds.field 1 rfl]
    cases f.kind <;> rfl
  · rw [holds.field 3 rfl]
    cases f.accessKind <;> rfl
  · rw [holds.field 4 rfl]
    cases f.size <;> rfl
  · rw [holds.flag 5 rfl, beq_iff_eq]
  · rw [holds.flag 6 rfl, beq_iff_eq]
  · intro w h
    rw [holds.field 12 rfl, h]
    rfl
  · intro n m h
    rw [holds.field 13 rfl, holds.field 14 rfl, h]
    exact ⟨rfl, rfl⟩
  · intro p h
    rw [holds.field 15 rfl, h]
    rfl
  · show BitVec.ofNat 32 (f.localAddr.elim 0 BitVec.toNat) = f.localAddr.getD 0
    cases f.localAddr with
    | none => rfl
    | some a => exact (BitVec.ofNat_toNat 32 a).trans (BitVec.setWidth_eq a)
  · show (BitVec.ofNat 32 (f.sysAddr.elim 0 fun a => a.toNat / 2 ^ 32)).extractLsb' 0 4 ++
      BitVec.ofNat 32 (f.sysAddr.elim 0 fun a => a.toNat % 2 ^ 32) = f.sysAddr.getD 0
    cases f.sysAddr with
    | none => rfl
    | some a => exact append_of_words a

end Sys2Proof.Machine
end

section
/-! A window's fields in P0 to P3 and in Q1 to Q4 (R2, R185, R187): what the words say, read and written. -/

namespace Sys2Proof.Machine

/-! ### Rights lists (R185) -/

theorem rightOfCode_eq : ∀ n, rightOfCode n = [Right.noRight, .read, .readWrite][n]?
  | 0 => rfl
  | 1 => rfl
  | 2 => rfl
  | _ + 3 => rfl

theorem right_getElem_code (r : Right) : [Right.noRight, .read, .readWrite][r.code]? = some r := by cases r <;> rfl

theorem Right.code_lt (r : Right) : r.code < 4 := by cases r <;> decide

theorem rightField_eq (v : Word) (p : PortId) :
    rightField v p = [Right.noRight, .read, .readWrite][(v.extractLsb' (2 * p.val) 2).toNat]? := by
  rw [rightField, rightOfCode_eq, field_eq_extract]

theorem decodeRights_eq_some_iff (v : Word) (r : Rights) :
    decodeRights v = some r ↔ ∀ p, rightField v p = some (r.get p) := by
  have defined : (allPorts.all fun p => (rightField v p).isSome) = true ↔ ∀ p, (rightField v p).isSome = true := by
    simp only [List.all_eq_true, mem_allPorts, true_imp_iff]
  unfold decodeRights
  constructor
  · intro h p
    obtain ⟨all, h⟩ := Option.ite_none_right_eq_some.1 h
    rw [← Option.some.inj h, ofFn_get]
    obtain ⟨x, hx⟩ := Option.isSome_iff_exists.1 (defined.1 all p)
    rw [hx, Option.getD_some]
  · intro h
    rw [if_pos (defined.2 fun p => by rw [h p, Option.isSome_some])]
    exact congrArg some (vector_ext_get fun p => by rw [ofFn_get, h p, Option.getD_some])

theorem rightsWord_holds (r : Rights) :
    Holds (BitVec.ofNat 32 (rightsWord r)) (portFields 2 fun p => (r.get p).code) := by
  have fits : ∀ p, (r.get p).code < 2 ^ 2 := fun p => (r.get p).code_lt
  exact (portFields_laidOut (by decide) fits).holds (by rw [total_portFields]; rfl)

/-! ### Fields (R2, R185) -/

theorem widthOfCode_eq : ∀ n, widthOfCode n = [Width.w8, .w16, .w32][n]?
  | 0 => rfl
  | 1 => rfl
  | 2 => rfl
  | _ + 3 => rfl

theorem width_getElem_code (x : Width) : [Width.w8, .w16, .w32][x.code]? = some x := by cases x <;> rfl

theorem Width.code_lt (x : Width) : x.code < 4 := by cases x <;> decide

/-- The words P0 to P2, or Q1 to Q3, show these fields (R185). -/
structure Terms.ShownIn (t : Terms) (p0 p1 p2 : Word) : Prop where
  localBase : t.localBase = p0
  targetBase : t.targetBase = p2.extractLsb' 0 4 ++ p1
  sizeCode : t.sizeCode.val = (p2.extractLsb' 8 5).toNat
  fetch : t.fetch = if p2.getLsbD 16 then .barred else .allowed
  level : t.level = if p2.getLsbD 17 then .privileged else .any
  width : [Width.w8, .w16, .w32][(p2.extractLsb' 18 2).toNat]? = some t.width
  posting : t.posting = if p2.getLsbD 20 then .posted else .strict
  linkable : t.linkable = p2.getLsbD 21

/-- The words show one field set at most. -/
theorem Terms.ShownIn.unique {t u : Terms} {p0 p1 p2 : Word} (ht : t.ShownIn p0 p1 p2) (hu : u.ShownIn p0 p1 p2) :
    t = u := by
  obtain ⟨_, _, _, _, _, _, _, _⟩ := t
  obtain ⟨_, _, _, _, _, _, _, _⟩ := u
  rw [Terms.mk.injEq]
  exact ⟨ht.localBase.trans hu.localBase.symm, Fin.ext (ht.sizeCode.trans hu.sizeCode.symm),
    ht.targetBase.trans hu.targetBase.symm, ht.fetch.trans hu.fetch.symm, ht.level.trans hu.level.symm,
    Option.some.inj (ht.width.symm.trans hu.width), ht.posting.trans hu.posting.symm,
    ht.linkable.trans hu.linkable.symm⟩

theorem Terms.ShownIn.some_eq_iff {t u : Terms} {p0 p1 p2 : Word} (hu : u.ShownIn p0 p1 p2) :
    some u = some t ↔ t.ShownIn p0 p1 p2 :=
  Option.some_inj.trans ⟨fun h => h ▸ hu, hu.unique⟩

theorem flag_ite {α : Type} (w : Word) (k : Nat) (x y : α) :
    (if field w k 1 = 0 then x else y) = if w.getLsbD k then y else x := by
  rw [field_eq_extract, toNat_extract_one]
  cases w.getLsbD k <;> rfl

/-- What the words P0 to P2 say where their width field encodes a width. -/
theorem decodeTerms_eq_some_iff (p0 p1 p2 : Word) (t : Terms) :
    decodeTerms p0 p1 p2 = some t ↔ t.ShownIn p0 p1 p2 := by
  have target : BitVec.ofNat 36 (p1.toNat + field p2 0 4 * 2 ^ 32) = p2.extractLsb' 0 4 ++ p1 := by
    apply BitVec.eq_of_toNat_eq
    have := (p2.extractLsb' 0 4).isLt
    have := p1.isLt
    rw [field_eq_extract, BitVec.toNat_append, Nat.shiftLeft_eq, Nat.mul_comm,
      ← Nat.two_pow_add_eq_or_of_lt p1.isLt, BitVec.toNat_ofNat]
    omega
  have size : (Fin.ofNat 32 (field p2 8 5)).val = (p2.extractLsb' 8 5).toNat := by
    rw [field_eq_extract]
    exact Nat.mod_eq_of_lt (p2.extractLsb' 8 5).isLt
  have linkable : (field p2 21 1 != 0) = p2.getLsbD 21 := by
    rw [field_eq_extract, toNat_extract_one]
    cases p2.getLsbD 21 <;> rfl
  unfold decodeTerms
  rw [widthOfCode_eq, field_eq_extract, target, flag_ite, flag_ite, flag_ite, linkable]
  rcases width : [Width.w8, .w16, .w32][(p2.extractLsb' 18 2).toNat]? with _ | x
  · exact ⟨fun h => (nomatch h), fun shown => nomatch width.symm.trans shown.width⟩
  · exact Terms.ShownIn.some_eq_iff ⟨rfl, rfl, size, rfl, rfl, width, rfl, rfl⟩

theorem Captured.fieldSet_eq_some_iff (c : Captured) (t : Terms) (r : Rights) :
    c.fieldSet = some (t, r) ↔
      (decodeTerms (c.params.get 0) (c.params.get 1) (c.params.get 2) = some t ∧
        decodeRights (c.params.get 3) = some r) ∧ t.IsValid := by
  unfold Captured.fieldSet
  rcases decodeTerms (c.params.get 0) (c.params.get 1) (c.params.get 2) with _ | x
  · simp
  rcases decodeRights (c.params.get 3) with _ | y
  · simp
  constructor
  · intro h
    obtain ⟨valid, h⟩ := Option.ite_none_right_eq_some.1 h
    cases h
    exact ⟨⟨rfl, rfl⟩, (Terms.valid_iff _).1 valid⟩
  · rintro ⟨⟨⟨⟩, ⟨⟩⟩, valid⟩
    exact if_pos ((Terms.valid_iff _).2 valid)

/-- The fields of Q3, and P2, for a window. -/
def termsFields (t : Terms) : List BitField :=
  [⟨0, 4, t.targetBase.toNat / 2 ^ 32⟩, ⟨8, 5, t.sizeCode.val⟩, ⟨16, 1, bit (t.fetch == .barred)⟩,
    ⟨17, 1, bit (t.level == .privileged)⟩, ⟨18, 2, t.width.code⟩, ⟨20, 1, bit (t.posting == .posted)⟩,
    ⟨21, 1, bit t.linkable⟩]

theorem Terms.word2_holds (t : Terms) : Holds (BitVec.ofNat 32 t.word2) (termsFields t) := by
  have high : t.targetBase.toNat / 4294967296 < 16 := Nat.div_lt_of_lt_mul t.targetBase.isLt
  have laid : LaidOut 0 32 (termsFields t) := by
    simp [LaidOut, termsFields, Width.code_lt, high]
  exact laid.holds (by dsimp only [Terms.word2, termsFields, total]; ring)

/-- The words that show a window's fields say what they are (R185, R187). -/
theorem Terms.shownIn_words (t : Terms) :
    t.ShownIn (BitVec.ofNat 32 t.localBase.toNat) (BitVec.ofNat 32 t.word1) (BitVec.ofNat 32 t.word2) := by
  have holds := t.word2_holds
  refine ⟨?_, (append_of_halves (holds.field 0 rfl)).symm, (holds.field 1 rfl).symm, ?_, ?_, ?_, ?_,
    (holds.flag 6 rfl).symm⟩
  · exact ((BitVec.ofNat_toNat 32 _).trans (BitVec.setWidth_eq _)).symm
  · rw [holds.flag 2 rfl]
    cases t.fetch <;> rfl
  · rw [holds.flag 3 rfl]
    cases t.level <;> rfl
  · rw [holds.field 4 rfl]
    exact width_getElem_code _
  · rw [holds.flag 5 rfl]
    cases t.posting <;> rfl

/-! ### The obligation -/

/-- Settles O29: a field set is taken where its words show it (`decodeTerms_eq_some_iff`, `decodeRights_eq_some_iff`)
and it is valid, and the words of a query show the window's (`Terms.shownIn_words`, `rightsWord_holds`). -/
theorem fieldsAreCarriedInTheParameters : Obligations.FieldsAreCarriedInTheParameters := by
  refine ⟨fun c t r => ⟨fun v => ?_, ?_⟩, ?_⟩
  · simp only [decodeRights_eq_some_iff, rightField_eq]
  · rw [c.fieldSet_eq_some_iff, decodeTerms_eq_some_iff, decodeRights_eq_some_iff]
    simp only [rightField_eq]
    exact and_congr_left' ⟨fun ⟨shown, rights⟩ => ⟨shown.localBase, shown.targetBase, shown.sizeCode, shown.fetch,
      shown.level, shown.width, shown.posting, shown.linkable, rights⟩,
      fun ⟨base, target, size, fetch, level, width, posting, linkable, rights⟩ =>
        ⟨⟨base, target, size, fetch, level, width, posting, linkable⟩, rights⟩⟩
  · intro r b c hb valid q h0 h1 h2 h3
    have words : q = wordsOf ((WindowRecord.windowState r).code + 2 ^ 3) b.terms.localBase.toNat b.terms.word1
        b.terms.word2 (rightsWord b.rights) := by
      simp only [q, windowWords, hb, if_true]
    rw [words] at h0 h1 h2 h3
    rw [c.fieldSet_eq_some_iff, decodeTerms_eq_some_iff, decodeRights_eq_some_iff, h0, h1, h2, h3, wordsOf_get_one,
      wordsOf_get_two, wordsOf_get_three, wordsOf_get_four]
    refine ⟨⟨b.terms.shownIn_words, fun p => ?_⟩, valid⟩
    rw [rightField_eq, (rightsWord_holds b.rights).port, right_getElem_code]

end Sys2Proof.Machine
end

section
/-! SET_PARAM and QUERY_DEVICE at the configuration unit (R190 to R192). -/

namespace Sys2Proof.Machine

/-! ### Requests that post a result with contents -/

/-- A request that changes nothing but the slot that its result reaches. -/
theorem State.Answers.of_posted {s : State} {i : PortId} {command : Instr} {n : RequestNumber} {r : Result}
    (he : exec command s = .next ((s.requestTaken i).postResult i n r)) :
    s.Answers i command ((Units.told s.port i).given i n r) s.config := by
  refine ⟨_, he, ?_, (State.postResult_eq _ _ _ _).trans rfl⟩
  rw [State.postResult_port, State.requestTaken_port]

theorem State.requestTaken_role (s : State) (i : PortId) : ((s.requestTaken i).port i).role = (s.port i).role := by
  rw [State.requestTaken_port]
  exact (Units.told_frame s.port i i).2.1

/-! ### SET_PARAM (R191, R192) -/

section
variable {s : State} {i : PortId} {c : Captured}

theorem exec_setParam (h : s.Asks i c .setParam) :
    exec (.setParam i) s = .next ((s.requestTaken i).takeSetParam i c) :=
  congrArg _ (State.onRequest_of h _)

theorem State.takeSetParam_noSuch (h : 9 ≤ c.target) : s.takeSetParam i c = s.reply i c .noSuch :=
  if_pos h

theorem State.takeSetParam_denied (h : c.target < 9) (ordinary : (s.port i).role ≠ .supervisor) :
    s.takeSetParam i c = s.reply i c .denied := by
  have within : ¬ 8 < c.target := by omega
  simp [State.takeSetParam, within, State.supervisor_iff, ordinary]

/-- From a supervisor, the value decides (R192). -/
theorem State.takeSetParam_supervisor (h : c.target < 9) (supervisor : (s.port i).role = .supervisor) :
    s.takeSetParam i c = (s.config.setParam c.target (c.params.get 0).toNat).elim (s.reply i c .invalid)
      fun g => State.reply { s with config := g } i c .done := by
  have within : ¬ 8 < c.target := by omega
  simp only [State.takeSetParam, if_neg within, (s.supervisor_iff i).2 supervisor, Bool.not_true, Bool.false_eq_true,
    if_false, Captured.value]
  cases s.config.setParam c.target (c.params.get 0).toNat <;> rfl

/-- A parameter takes the values of its range, and no other (R191). -/
theorem State.setParam_answers (h : s.Asks i c .setParam) (supervisor : (s.port i).role = .supervisor)
    (within : c.target < 9) {low high : Nat} {g : ConfigUnit}
    (range : s.config.setParam c.target (c.params.get 0).toNat =
      if low ≤ (c.params.get 0).toNat ∧ (c.params.get 0).toNat ≤ high then some g else none) :
    (low ≤ (c.params.get 0).toNat ∧ (c.params.get 0).toNat ≤ high → s.Answers i (.setParam i)
      ((Units.told s.port i).given i c.number (plainResult .done none)) g) ∧
    (¬ (low ≤ (c.params.get 0).toNat ∧ (c.params.get 0).toNat ≤ high) → s.Answers i (.setParam i)
      ((Units.told s.port i).given i c.number (plainResult .invalid none)) s.config) := by
  have taken := State.takeSetParam_supervisor (s := s.requestTaken i) within ((s.requestTaken_role i).trans supervisor)
  rw [show (s.requestTaken i).config = s.config from rfl, range] at taken
  refine ⟨fun inside => State.Answers.of_config (exec_setParam h) ?_,
    fun outside => State.Answers.of_reply (exec_setParam h) ?_⟩
  · rwa [if_pos inside] at taken
  · rwa [if_neg outside] at taken

end

/-- Settles O35: the examination step by step, and each selector's range (`State.setParam_answers`). -/
theorem setParamSetsTheParameter : Obligations.SetParamSetsTheParameter := by
  intro s i c h value replies parameter
  refine ⟨fun noSuch => ?_, fun within ordinary => ?_, fun supervisor => ⟨fun ht => ?_, fun ht => ?_, fun ht => ?_,
    fun p ht => ?_⟩⟩
  · exact State.Answers.of_reply (exec_setParam h) (State.takeSetParam_noSuch noSuch)
  · exact State.Answers.of_reply (exec_setParam h)
      (State.takeSetParam_denied within ((s.requestTaken_role i).trans_ne ordinary))
  · exact State.setParam_answers h supervisor (by omega) (by rw [ht]; rfl)
  · exact State.setParam_answers h supervisor (by omega) (by rw [ht]; rfl)
  · refine State.setParam_answers h supervisor (by omega) ?_
    rw [ht]
    simp only [Nat.zero_le, true_and]
    rfl
  · refine State.setParam_answers h supervisor (by omega) ?_
    rw [ht, Nat.add_comm]
    simp only [Nat.zero_le, true_and]
    have : Fin.ofNat 6 p.val = p := Fin.ext (Nat.mod_eq_of_lt p.isLt)
    simp only [ConfigUnit.setParam, this]
    rfl

/-! ### QUERY_DEVICE (R190) -/

theorem State.occupancy_eq (s : State) (p : PortId) :
    s.occupancy p = (s.engine.store.filter fun e => e.port = p).length :=
  List.countP_eq_length_filter

section
variable {s : State} {i : PortId} {c : Captured}

theorem exec_queryDevice (h : s.Asks i c .queryDevice) :
    exec (.queryDevice i) s = .next ((s.requestTaken i).takeQueryDevice i c) :=
  congrArg _ (State.onRequest_of h _)

theorem State.takeQueryDevice_denied (ordinary : (s.port i).role ≠ .supervisor) :
    s.takeQueryDevice i c = s.reply i c .denied := by
  simp [State.takeQueryDevice, State.supervisor_iff, ordinary]

theorem State.takeQueryDevice_supervisor (supervisor : (s.port i).role = .supervisor) :
    s.takeQueryDevice i c = (s.deviceContents (c.params.get 0).toNat).elim (s.reply i c .invalid) fun ws =>
      s.postResult i c.number { code := .done, generation := none, words := ws } := by
  rw [State.takeQueryDevice, if_pos ((s.supervisor_iff i).2 supervisor), show c.value = (c.params.get 0).toNat from rfl]
  cases s.deviceContents (c.params.get 0).toNat <;> rfl

/-- QUERY_DEVICE has the selectors 0 and 1 (R190). -/
theorem State.deviceContents_none (s : State) {selector : Nat} (h : 2 ≤ selector) :
    s.deviceContents selector = none := by
  obtain ⟨k, rfl⟩ := Nat.exists_eq_add_of_le' h
  rfl

/-- The contents that are reported are those of the state in which the request is sent. -/
theorem State.queryDevice_answers (h : s.Asks i c .queryDevice) (supervisor : (s.port i).role = .supervisor)
    {ws : Vector Word 5} (contents : s.deviceContents (c.params.get 0).toNat = some ws) :
    s.Answers i (.queryDevice i)
      ((Units.told s.port i).given i c.number { code := .done, generation := none, words := ws }) s.config := by
  refine State.Answers.of_posted ((exec_queryDevice h).trans (congrArg _ ?_))
  rw [State.takeQueryDevice_supervisor ((s.requestTaken_role i).trans supervisor),
    show (s.requestTaken i).deviceContents (c.params.get 0).toNat = s.deviceContents (c.params.get 0).toNat from rfl,
    contents]
  rfl

end

/-- What selector 0 shows of the parameters and the store, each in its own bits, where the laws of the state keep each
in its range (R121, R122, R190, R191). -/
theorem deviceWords_holds {s : State} (parameters : s.ParametersInRange) (store : s.StoreWithinBounds)
    (waiters : s.WaitersWait) {ws : Vector Word 5}
    (hws : ws = deviceWords s.config s.engine.store.length s.engine.waitingList.length s.occupancy) :
    Holds (ws.get 0) [⟨0, 8, s.config.parkLimit⟩, ⟨8, 4, s.config.retryLimit⟩, ⟨16, 10, s.config.responseLimit⟩] ∧
    Holds (ws.get 1) (portFields 2 s.config.ranks.get) ∧
    Holds (ws.get 2) [⟨0, 5, s.engine.store.length⟩, ⟨8, 3, s.engine.waitingList.length⟩] ∧
    Holds (ws.get 3) (portFields 4 s.occupancy) := by
  obtain ⟨⟨-, park⟩, ⟨-, response⟩, retry, ranks⟩ := parameters
  obtain ⟨entries, quotas⟩ := store
  have waiting : s.engine.waitingList.length ≤ 6 := waiters.1.length_le_card.trans (by simp)
  subst hws
  unfold deviceWords
  rw [wordsOf_get_zero, wordsOf_get_one, wordsOf_get_two, wordsOf_get_three]
  refine ⟨?_, ?_, ?_, ?_⟩
  · have laid : LaidOut 0 32 [⟨0, 8, s.config.parkLimit⟩, ⟨8, 4, s.config.retryLimit⟩,
        ⟨16, 10, s.config.responseLimit⟩] := by
      simp only [LaidOut]
      omega
    exact laid.holds (by simp only [total]; ring)
  · have fits : ∀ p, s.config.ranks.get p < 2 ^ 2 := fun p => Nat.lt_succ_of_le (ranks p)
    exact (portFields_laidOut (by decide) fits).holds (total_portFields _ _).symm
  · have laid : LaidOut 0 32 [⟨0, 5, s.engine.store.length⟩, ⟨8, 3, s.engine.waitingList.length⟩] := by
      simp only [LaidOut]
      omega
    exact laid.holds (by simp only [total]; ring)
  · have fits : ∀ p, s.occupancy p < 2 ^ 4 := fun p => by
      have := quotas p
      rw [s.occupancy_eq]
      omega
    exact (portFields_laidOut (by decide) fits).holds (total_portFields _ _).symm

/-- Settles O37: the refusals are equations of the examination, and the words of selector 0 are read field by field
(`deviceWords_holds`). -/
theorem queryDeviceReportsTheDevice : Obligations.QueryDeviceReportsTheDevice := by
  intro s i c h posts
  refine ⟨fun ordinary => ?_, fun supervisor => ⟨fun selector => ?_, fun selector => ?_,
    fun selector parameters store waiters => ?_⟩⟩
  · exact State.Answers.of_reply (exec_queryDevice h)
      (State.takeQueryDevice_denied ((s.requestTaken_role i).trans_ne ordinary))
  · refine State.Answers.of_reply (exec_queryDevice h) ?_
    rw [State.takeQueryDevice_supervisor ((s.requestTaken_role i).trans supervisor),
      State.deviceContents_none _ selector]
    rfl
  · exact State.queryDevice_answers h supervisor (by rw [selector]; rfl)
  · obtain ⟨limits, ranks, engine, occupancy⟩ := deviceWords_holds parameters store waiters rfl
    refine ⟨_, State.queryDevice_answers h supervisor (by rw [selector]; rfl), limits.field 0 rfl, limits.field 1 rfl,
      limits.field 2 rfl, engine.field 0 rfl, engine.field 1 rfl, fun p => ⟨ranks.port p, ?_⟩⟩
    exact (occupancy.port p).trans (s.occupancy_eq p)

end Sys2Proof.Machine
end

section
/-! QUERY_PORT at its target (R188): the contents that it posts, and the words that show a port unit and a lookaside
entry. -/

namespace Sys2Proof.Machine

/-! ### The contents (R188) -/

section
variable {s : State} {i q : PortId} {c : Captured}

/-- The contents that are reported are those of the target once the issuer's request is taken. -/
theorem State.queryPort_answers (h : s.Asks i c .queryPort) (ht : c.target = q.val)
    (may : (s.port i).role = .supervisor ∨ q = i) {ws : Vector Word 5}
    (contents : (s.requestTaken i).portContents q (c.params.get 0).toNat = some ws) :
    s.Answers i (.queryPort i)
      ((Units.told s.port i).given i c.number { code := .done, generation := none, words := ws }) s.config := by
  have permitted : (s.requestTaken i).mayInspect i q = true :=
    ((s.requestTaken i).mayInspect_iff i q).2 (may.imp_left (s.requestTaken_role i).trans)
  have taken : (s.requestTaken i).takeQueryPort i q c =
      (s.requestTaken i).postResult i c.number { code := .done, generation := none, words := ws } := by
    rw [State.takeQueryPort, if_pos permitted, show c.value = (c.params.get 0).toNat from rfl, contents]
  exact State.Answers.of_posted ((exec_queryPort h ht).trans (congrArg _ taken))

theorem State.portContents_state (s : State) (q : PortId) :
    s.portContents q 0 = some (portWords (s.port q) (s.occupancy q) (s.reservation q)) := rfl

theorem State.portContents_fault (s : State) (q : PortId) :
    s.portContents q 1 = some (faultWords (s.port q).fault none (s.port q).overflow) := rfl

theorem State.portContents_entry (s : State) (q : PortId) (k : Fin 4) :
    s.portContents q (k.val + 2) = some (lookasideWords (s.port q).lookaside k) := by
  fin_cases k <;> rfl

theorem State.portContents_some (s : State) (q : PortId) {selector : Nat} (h : selector < 6) :
    ∃ ws, s.portContents q selector = some ws := by
  obtain rfl | rfl | ⟨k, rfl⟩ : selector = 0 ∨ selector = 1 ∨ ∃ k : Fin 4, selector = k.val + 2 := by
    rcases selector with _ | _ | k
    · exact .inl rfl
    · exact .inr (.inl rfl)
    · exact .inr (.inr ⟨⟨k, by omega⟩, rfl⟩)
  · exact ⟨_, s.portContents_state q⟩
  · exact ⟨_, s.portContents_fault q⟩
  · exact ⟨_, s.portContents_entry q k⟩

end

/-! ### A port unit in Q0 to Q3 -/

/-- The fields of Q0 for a port unit: state, role and stage (R188). -/
def unitFields (u : PortUnit) : List BitField :=
  [⟨0, 2, u.state.code⟩, ⟨2, 1, bit (u.role == .supervisor)⟩, ⟨4, 3, u.current.stageCode⟩]

theorem portState_getElem_code (x : PortState) :
    [PortState.offline, .active, .fenced, .quiescing][x.code]? = some x := by
  cases x <;> rfl

theorem PortState.code_lt (x : PortState) : x.code < 4 := by cases x <;> decide

theorem CurrentAccess.stageCode_lt (x : CurrentAccess) : x.stageCode < 8 := by
  cases x <;> simp [CurrentAccess.stageCode]

theorem portWords_get_zero (u : PortUnit) (occupancy : Nat) (res : Option Reservation) :
    (portWords u occupancy res).get 0 =
      BitVec.ofNat 32 (total (unitFields u) + 2 ^ 8 * (occupancy + 2 ^ 8 * u.epoch.toNat)) := by
  have head : u.state.code + bit (u.role == .supervisor) * 2 ^ 2 + u.current.stageCode * 2 ^ 4 + occupancy * 2 ^ 8
      + u.epoch.toNat * 2 ^ 16 = total (unitFields u) + 2 ^ 8 * (occupancy + 2 ^ 8 * u.epoch.toNat) := by
    simp only [total, unitFields]
    ring
  rw [← head]
  cases res <;> exact ofFn_get _ 0

theorem unitFields_laidOut (u : PortUnit) : LaidOut 0 8 (unitFields u) := by
  simp [LaidOut, unitFields, PortState.code_lt, CurrentAccess.stageCode_lt]

theorem portWords_holds (u : PortUnit) (occupancy : Nat) (res : Option Reservation) :
    Holds ((portWords u occupancy res).get 0) (unitFields u) :=
  portWords_get_zero u occupancy res ▸ (unitFields_laidOut u).holds_below (by decide) _

/-- The occupancy and the port epoch show where the occupancy fits its four bits. -/
theorem portWords_holds_epoch (u : PortUnit) {occupancy : Nat} (res : Option Reservation) (h : occupancy < 16) :
    Holds ((portWords u occupancy res).get 0) (unitFields u ++ [⟨8, 4, occupancy⟩, ⟨16, 16, u.epoch.toNat⟩]) := by
  have upper : LaidOut 8 32 [⟨8, 4, occupancy⟩, ⟨16, 16, u.epoch.toNat⟩] := by
    simp [LaidOut, h, halfword_lt]
  have laid := upper.append (unitFields_laidOut u)
  rw [portWords_get_zero]
  exact laid.holds (by simp only [total_append, total]; ring)

theorem portWords_unreserved (u : PortUnit) (occupancy : Nat) : (portWords u occupancy none).get 1 = 0 :=
  ofFn_get _ 1

theorem portWords_reservation_holds (u : PortUnit) (occupancy : Nat) (r : Reservation) :
    Holds ((portWords u occupancy (some r)).get 1) [⟨0, 1, 1⟩, ⟨8, 6, r.window.val⟩] := by
  have laid : LaidOut 0 32 [⟨0, 1, 1⟩, ⟨8, 6, r.window.val⟩] := by simp [LaidOut]
  show Holds (BitVec.ofNat 32 (1 + r.window.val * 2 ^ 8)) _
  exact laid.holds (by simp only [total]; ring)

/-! ### A lookaside entry in Q0 to Q3 -/

/-- The fields of Q0 for a valid lookaside entry, its present bit first (R188). -/
def entryFields (l : Lookaside) (k : Fin 4) (d : Copy) : List BitField :=
  [⟨0, 1, 1⟩, ⟨1, 2, l.order.idxOf k⟩, ⟨3, 1, d.epoch.val⟩, ⟨4, 2, d.right.code⟩, ⟨8, 6, d.window.val⟩,
    ⟨16, 16, d.generation.toNat⟩]

theorem lookasideWords_some {l : Lookaside} {k : Fin 4} {d : Copy} (h : l.entries.get k = some d) :
    lookasideWords l k = wordsOf (total (entryFields l k d)) d.terms.localBase.toNat d.terms.word1 d.terms.word2 0 := by
  have head : 1 + l.order.idxOf k * 2 + d.epoch.val * 2 ^ 3 + d.right.code * 2 ^ 4 + d.window.val * 2 ^ 8
      + d.generation.toNat * 2 ^ 16 = total (entryFields l k d) := by
    simp only [total, entryFields]
    ring
  rw [← head, lookasideWords, h]

/-- The present bit (R188). -/
theorem lookasideWords_present (l : Lookaside) (k : Fin 4) :
    ((lookasideWords l k).get 0).getLsbD 0 = true ↔ l.entries.get k ≠ none := by
  rcases h : l.entries.get k with _ | d
  · simp [lookasideWords, h, zeroWords]
  · have present : LaidOut 0 1 [⟨0, 1, 1⟩] := by simp [LaidOut]
    have shape : total (entryFields l k d) = total [⟨0, 1, 1⟩] + 2 ^ 1 * (l.order.idxOf k + d.epoch.val * 2 ^ 2
        + d.right.code * 2 ^ 3 + d.window.val * 2 ^ 7 + d.generation.toNat * 2 ^ 15) := by
      simp only [total, entryFields]
      ring
    rw [lookasideWords_some h, wordsOf_get_zero, shape]
    simpa using (present.holds_below (by decide) _).flag 0 (b := true) rfl

/-- A place in a well-kept order takes two bits (R32). -/
theorem Lookaside.WellKept.place {l : Lookaside} (kept : l.WellKept) {k : Fin 4} {d : Copy}
    (h : l.entries.get k = some d) : l.order.idxOf k < 4 ∧ l.order[l.order.idxOf k]? = some k := by
  obtain ⟨once, valid, -⟩ := kept
  have member : k ∈ l.order := (valid k).2 (by simp [h])
  exact ⟨(List.idxOf_lt_length_of_mem member).trans_le (once.length_le_card.trans (by simp)),
    List.getElem?_idxOf member⟩

theorem lookasideWords_holds {l : Lookaside} (kept : l.WellKept) {k : Fin 4} {d : Copy}
    (h : l.entries.get k = some d) : Holds ((lookasideWords l k).get 0) (entryFields l k d) := by
  rw [lookasideWords_some h, wordsOf_get_zero]
  refine LaidOut.holds ?_ rfl
  simp [LaidOut, entryFields, Right.code_lt, (kept.place h).1, halfword_lt]

/-- A setting of two values that a flag shows. -/
theorem flag_iff_of_ite {α : Type} {b : Bool} {x on off : α} (differ : off ≠ on) (h : x = if b then on else off) :
    b = true ↔ x = on := by
  cases b
  · simpa [h] using differ
  · simpa using h

/-- Settles O33: the contents are posted whatever the selector (`State.queryPort_answers`), and the words of each
selector are read field by field. -/
theorem queryPortReportsTheUnit : Obligations.QueryPortReportsTheUnit := by
  intro s i q c h ht may within
  obtain ⟨ws, contents⟩ := (s.requestTaken i).portContents_some q within
  obtain ⟨t, event, units, rest⟩ := State.queryPort_answers h ht may contents
  refine ⟨t, ws, event, units, rest, ?_⟩
  intro u
  have unit : (s.requestTaken i).port q = u := congrFun (s.requestTaken_port i) q
  refine ⟨fun selector => ?_, fun selector => ?_, fun k selector => ?_⟩ <;> rw [selector] at contents
  · rw [State.portContents_state, unit, show (s.requestTaken i).occupancy q = s.occupancy q from rfl,
      show (s.requestTaken i).reservation q = s.reservation q from rfl] at contents
    obtain rfl := Option.some.inj contents
    have holds := portWords_holds u (s.occupancy q) (s.reservation q)
    refine ⟨?_, ?_, ?_, fun few => ?_, fun empty => ?_, fun r reserved => ?_⟩
    · rw [← portState_getElem_code u.state]
      exact congrArg _ (holds.field 0 rfl)
    · exact (congrArg (· = true) (holds.flag 1 rfl)).to_iff.trans beq_iff_eq
    · refine (holds.field 2 rfl).trans ?_
      cases u.current <;> rfl
    · rw [← s.occupancy_eq] at few ⊢
      have holds := portWords_holds_epoch u (s.reservation q) (few.trans_lt (by decide))
      exact ⟨holds.field 3 rfl, holds.bits 4 rfl⟩
    · rw [empty, portWords_unreserved]
      rfl
    · rw [reserved]
      have holds := portWords_reservation_holds u (s.occupancy q) r
      exact ⟨holds.flag 0 rfl, holds.field 1 rfl, append_of_words r.granule⟩
  · rw [State.portContents_fault, unit] at contents
    exact (Option.some.inj contents).symm
  · rw [State.portContents_entry, unit] at contents
    obtain rfl := Option.some.inj contents
    refine ⟨lookasideWords_present _ k, fun d entry kept => ?_⟩
    have holds := lookasideWords_holds kept entry
    have shown := d.terms.shownIn_words
    refine ⟨?_, holds.field 2 rfl, ?_, holds.field 4 rfl, holds.bits 5 rfl, ?_⟩
    · rw [holds.field 1 rfl]
      exact (kept.place entry).2
    · rw [holds.field 3 rfl]
      exact right_getElem_code d.right
    · rw [lookasideWords_some entry, wordsOf_get_one, wordsOf_get_two, wordsOf_get_three]
      refine ⟨shown.localBase.symm, shown.targetBase.symm, shown.sizeCode.symm, ?_, ?_, shown.width, ?_,
        shown.linkable.symm⟩
      · exact flag_iff_of_ite (by decide) shown.fetch
      · exact flag_iff_of_ite (by decide) shown.level
      · exact flag_iff_of_ite (by decide) shown.posting

end Sys2Proof.Machine
end

section
/-! QUERY_WINDOW (R187): its examination, and the words that show a window's bookkeeping. -/

namespace Sys2Proof.Machine

/-! ### The examination -/

/-- Who may query a window: a supervisor, or a port with a right in it (R187). -/
def State.MayQuery (s : State) (p : PortId) (w : WindowId) : Prop :=
  (s.port p).role = .supervisor ∨
    ∃ b, (s.record w).body = some b ∧ (b.rights.get p = .read ∨ b.rights.get p = .readWrite)

theorem WindowRecord.grants_iff (r : WindowRecord) (p : PortId) :
    r.grants p = true ↔ ∃ b, r.body = some b ∧ (b.rights.get p = .read ∨ b.rights.get p = .readWrite) := by
  unfold WindowRecord.grants
  rcases r.body with _ | b
  · simp
  · rcases hr : b.rights.get p <;> simp [hr]

/-- The result that reports a record (R187). -/
def WindowRecord.report (r : WindowRecord) (selector : Nat) : Result where
  code := .done
  generation := some r.generation
  words := windowWords r selector

section
variable {s : State} {i : PortId} {c : Captured}

theorem exec_queryWindow (h : s.ChoosesRequest i c .queryWindow) :
    exec .queryWindow s = .next ((s.takeTableRequest i).takeQueryWindow i c) :=
  congrArg _ (State.onTableRequest_of h _)

theorem State.takeQueryWindow_noSuch (h : 64 ≤ c.target) : s.takeQueryWindow i c = s.refuse i c .noSuch none :=
  dif_neg (by omega)

variable {w : WindowId} (hw : c.target = w.val)
include hw

/-- The examination of a request that names window w. -/
theorem State.takeQueryWindow_target :
    s.takeQueryWindow i c =
      if (s.port i).role != .supervisor && !(s.record w).grants i then
        s.refuse i c .denied (some (s.record w).generation)
      else if (c.params.get 0).toNat ≤ 1 then
        s.postResult i c.number ((s.record w).report (c.params.get 0).toNat)
      else s.refuse i c .invalid (some (s.record w).generation) := by
  have named : (⟨c.target, hw ▸ w.isLt⟩ : WindowId) = w := Fin.ext hw
  rw [State.takeQueryWindow, dif_pos (hw ▸ w.isLt), named]
  rfl

theorem State.takeQueryWindow_denied (h : ¬ s.MayQuery i w) :
    s.takeQueryWindow i c = s.refuse i c .denied (some (s.record w).generation) := by
  rw [State.MayQuery, ← WindowRecord.grants_iff, not_or] at h
  rw [State.takeQueryWindow_target hw, if_pos (by simpa using h)]

theorem State.takeQueryWindow_permitted (h : s.MayQuery i w) :
    s.takeQueryWindow i c =
      if (c.params.get 0).toNat ≤ 1 then
        s.postResult i c.number ((s.record w).report (c.params.get 0).toNat)
      else s.refuse i c .invalid (some (s.record w).generation) := by
  rw [State.MayQuery, ← WindowRecord.grants_iff] at h
  rw [State.takeQueryWindow_target hw, if_neg]
  simp only [Bool.and_eq_true, bne_iff_ne, Bool.not_eq_true', ← Bool.not_eq_true]
  tauto

end

/-! ### A window's state and bookkeeping in Q0 and Q1 -/

theorem windowPhase_getElem_code {r : WindowRecord} {b : WindowBody} (h : r.body = some b) :
    [none, some WindowPhase.staged, some .live, some .held, some .draining][r.windowState.code]?
      = some (some b.phase) := by
  unfold WindowRecord.windowState
  rw [h]
  rcases hp : b.phase <;> simp [hp, WindowState.code]

theorem WindowState.code_lt (x : WindowState) : x.code < 8 := by cases x <;> decide

/-- The fields of Q0 that both selectors show: the window's state, and that it is not FREE (R187). -/
def headFields (r : WindowRecord) : List BitField := [⟨0, 3, r.windowState.code⟩, ⟨3, 1, 1⟩]

theorem headFields_laidOut (r : WindowRecord) : LaidOut 0 4 (headFields r) := by
  simp [LaidOut, headFields, WindowState.code_lt]

theorem total_headFields (r : WindowRecord) : total (headFields r) = r.windowState.code + 2 ^ 3 := by
  simp [total, headFields]

/-- A pending operation's kind, requester and two flags as QUERY_WINDOW reports them (R187). -/
def pendingReport : Option PendingOp → Nat × Nat × Bool × Bool
  | none => (0, 0, false, false)
  | some (.hold q _ settled) => (1, q.val, settled, false)
  | some (.retire q _) => (2, q.val, false, false)
  | some (.revise q _ narrowing) => (3, q.val, false, narrowing)

/-- The fields of Q0 above the head with selector 1 (R187). -/
def bookFields (b : WindowBody) : List BitField :=
  [⟨4, 1, b.epoch.val⟩, ⟨8, 5, countField (b.counts.get 0)⟩, ⟨16, 5, countField (b.counts.get 1)⟩,
    ⟨24, 2, (pendingReport b.pendingOp).1⟩, ⟨26, 3, (pendingReport b.pendingOp).2.1⟩,
    ⟨29, 1, bit (pendingReport b.pendingOp).2.2.1⟩, ⟨30, 1, bit (pendingReport b.pendingOp).2.2.2⟩]

theorem pendingReport_lt (o : Option PendingOp) : (pendingReport o).1 < 4 ∧ (pendingReport o).2.1 < 8 := by
  rcases o with _ | ⟨q, n, settled⟩ | ⟨q, n⟩ | ⟨q, n, narrowing⟩
  · decide
  all_goals exact ⟨by simp [pendingReport], q.isLt.trans (by decide)⟩

theorem pendingWord_eq (o : Option PendingOp) :
    pendingWord o = (pendingReport o).1 * 2 ^ 24 + (pendingReport o).2.1 * 2 ^ 26
      + bit (pendingReport o).2.2.1 * 2 ^ 29 + bit (pendingReport o).2.2.2 * 2 ^ 30 := by
  rcases o with _ | ⟨q, n, settled⟩ | ⟨q, n⟩ | ⟨q, n, narrowing⟩ <;>
    (dsimp only [pendingWord, pendingReport]; rw [bit_false]; ring)

theorem bookFields_laidOut (b : WindowBody) : LaidOut 4 32 (bookFields b) := by
  simp [LaidOut, bookFields, countField_spec, pendingReport_lt]

/-- The fields of Q1 with selector 1: the outstanding set, and its generation where there is one (R187). -/
def setFields (b : WindowBody) : List BitField :=
  (portFields 1 fun p => bit (b.shootSet.contains p)) ++
    [⟨8, 1, bit b.setGeneration.isSome⟩, ⟨16, 16, (b.setGeneration.getD 0).toNat⟩]

theorem setFields_laidOut (b : WindowBody) : LaidOut 0 32 (setFields b) := by
  have upper : LaidOut 6 32 [⟨8, 1, bit b.setGeneration.isSome⟩, ⟨16, 16, (b.setGeneration.getD 0).toNat⟩] := by
    simp [LaidOut, halfword_lt]
  exact upper.append (portFields_laidOut (by decide) fun p => Nat.lt_succ_of_le (bit_le_one _))

theorem total_setFields (b : WindowBody) :
    total (setFields b) = portSetWord b.shootSet + b.setGeneration.elim 0 fun g => 2 ^ 8 + g.toNat * 2 ^ 16 := by
  rw [setFields, total_append, total_portFields]
  refine congrArg (portSetWord b.shootSet + ·) ?_
  cases b.setGeneration with
  | none => rfl
  | some g =>
    rw [Option.elim_some, Option.isSome_some, Option.getD_some, bit_true, total, total, total]
    ring

section
variable {r : WindowRecord} {b : WindowBody} (hb : r.body = some b)
include hb

/-- Selector 1, and every other but 0, shows the bookkeeping. -/
theorem windowWords_book {selector : Nat} (h : selector ≠ 0) :
    windowWords r selector = wordsOf (total (headFields r ++ bookFields b)) (total (setFields b)) 0 0 0 := by
  have book : r.windowState.code + 2 ^ 3 + b.epoch.val * 2 ^ 4 + countField (b.counts.get 0) * 2 ^ 8
      + countField (b.counts.get 1) * 2 ^ 16 + pendingWord b.pendingOp = total (headFields r ++ bookFields b) := by
    rw [total_append, total_headFields, pendingWord_eq]
    simp only [bookFields, total]
    ring
  rw [← book, total_setFields]
  unfold windowWords
  rw [hb]
  dsimp only
  rw [if_neg h]
  split
  next absent =>
    rw [absent]
    rfl
  next g present => rw [present, Option.elim_some]

theorem windowWords_head (selector : Nat) : Holds ((windowWords r selector).get 0) (headFields r) := by
  by_cases h : selector = 0
  · have fields : (windowWords r selector).get 0 = BitVec.ofNat 32 (total (headFields r) + 2 ^ 4 * 0) := by
      rw [total_headFields]
      simp only [windowWords, hb, if_pos h, wordsOf_get_zero, Nat.mul_zero, Nat.add_zero]
    exact fields ▸ (headFields_laidOut r).holds_below (by decide) 0
  · rw [windowWords_book hb h, wordsOf_get_zero]
    exact (((bookFields_laidOut b).append (headFields_laidOut r)).holds rfl).lower

theorem windowWords_book_holds :
    Holds ((windowWords r 1).get 0) (bookFields b) ∧ Holds ((windowWords r 1).get 1) (setFields b) := by
  rw [windowWords_book hb one_ne_zero, wordsOf_get_zero, wordsOf_get_one]
  exact ⟨(((bookFields_laidOut b).append (headFields_laidOut r)).holds rfl).upper, (setFields_laidOut b).holds rfl⟩

end

/-- Settles O28: the examination in its order, and the report's words read field by field. -/
theorem queryWindowReportsTheRecord : Obligations.QueryWindowReportsTheRecord := by
  refine ⟨?_, fun r => ⟨fun free selector => ?_, ?_⟩⟩
  · intro s i c h posts
    have event := exec_queryWindow h
    refine ⟨fun noSuch => ?_, fun w hw => ?_⟩
    · rw [State.takeQueryWindow_noSuch noSuch] at event
      exact State.Leaves.of_refused event
    intro g permitted
    have may : (s.takeTableRequest i).MayQuery i w ↔ permitted := by
      have role : ((s.takeTableRequest i).port i).role = (s.port i).role := by simp [Units.told, Units.put]
      rw [State.MayQuery, role]
      rfl
    refine ⟨fun denied => ?_, fun allowed invalid => ?_, fun allowed valid => ?_⟩
    · rw [State.takeQueryWindow_denied hw (mt may.1 denied)] at event
      exact State.Leaves.of_refused event
    · rw [State.takeQueryWindow_permitted hw (may.2 allowed), if_neg (by omega)] at event
      exact State.Leaves.of_refused event
    · rw [State.takeQueryWindow_permitted hw (may.2 allowed), if_pos (by omega)] at event
      exact State.Leaves.of_posted event
  · rw [windowWords, free]
    rfl
  · intro b hb
    have head := windowWords_head hb
    refine ⟨fun selector => ⟨?_, (head selector).flag 1 rfl⟩, ?_⟩
    · rw [(head selector).field 0 rfl]
      exact windowPhase_getElem_code hb
    intro q0 q1
    obtain ⟨book, set⟩ : Holds q0 (bookFields b) ∧ Holds q1 (setFields b) := windowWords_book_holds hb
    refine ⟨book.field 0 rfl, fun h => ?_, fun h => ?_, ?_, fun p => ?_, set.upper.flag 0 rfl, set.upper.bits 1 rfl⟩
    · exact (book.field 1 rfl).trans ((countField_spec _).2 h)
    · exact (book.field 2 rfl).trans ((countField_spec _).2 h)
    · rw [book.field 3 rfl, book.field 4 rfl, book.flag 5 rfl, book.flag 6 rfl]
      rcases b.pendingOp with _ | ⟨q, n, settled⟩ | ⟨q, n⟩ | ⟨q, n, narrowing⟩ <;> rfl
    · rw [set.lower.portFlag p, List.contains_iff_mem]

end Sys2Proof.Machine
end

section
/-! The command slot as its initiator reaches it through the aperture (10.1, 10.2): its words written and read, ISSUE,
ACKNOWLEDGE, and the results that it takes. -/

namespace Sys2Proof.Machine

/-! ### Arrivals in the aperture (R28, R30) -/

/-- The slot answers an aperture access in every port state but OFFLINE. -/
theorem State.presentAccess_slot {s : State} {p : PortId} {a : Access} (reached : s.SlotOpen p)
    (word : a.IsApertureWord) : s.presentAccess p a = (s.unanswered p).accessSlot p a := by
  obtain ⟨ready, online⟩ := reached
  have isWord : a.toAccessHead.isApertureWord = true := (isApertureWord_iff a).2 word
  rcases state : (s.port p).state with _ | _ | _ | _
  · exact absurd state online
  · obtain ⟨kind, size, high, multiple⟩ := word
    have placed : ¬ a.Misaligned := by
      rw [Access.Misaligned, size]
      exact fun h => h.elim (fun odd => odd multiple) fun h => h.2 rfl
    have unlinked : a.kind.isLinked = false := by rcases kind with kind | kind <;> rw [kind] <;> rfl
    rw [State.presentAccess_active ready state, State.checkArrival, (aligned_iff a).2 placed, (inAperture_iff _).2 high,
      unlinked]
    rfl
  all_goals
    rw [State.presentAccess_idle ready.1, State.arrive, State.unanswered_port, ready.2, state, isWord]
    rfl

/-! ### The words by their offsets (R178) -/

theorem slotWordAt_plain (w : PlainWord) : slotWordAt w.offset = some (.plain w) := by
  cases w with
  | param k => revert k; decide
  | resultWord k => revert k; decide
  | request | identity | status | result => rfl

/-- The plain words stand at multiples of 4 below 044h. -/
theorem plainWord_offset (w : PlainWord) : w.offset < 0x044 ∧ w.offset % 4 = 0 := by
  cases w with
  | param k => exact (by omega : 0x004 + 4 * k.val < 0x044 ∧ (0x004 + 4 * k.val) % 4 = 0)
  | resultWord k => exact (by omega : 0x02C + 4 * k.val < 0x044 ∧ (0x02C + 4 * k.val) % 4 = 0)
  | request | identity | status | result => decide

/-- There is no word above 040h. -/
theorem slotWordAt_none {offset : Nat} (h : 0x044 ≤ offset) : slotWordAt offset = none := by
  have none : plainWords.find? (fun w => w.offset == offset) = none :=
    List.find?_eq_none.2 fun w _ hw => absurd (beq_iff_eq.1 hw) (by have := plainWord_offset w; omega)
  rw [slotWordAt, if_neg (by unfold issueOffset; omega), if_neg (by unfold acknowledgeOffset; omega), none]
  rfl

section
variable {s : State} {p : PortId} {a : Access} {offset : Nat} (reached : s.SlotOpen p) (size : a.size = .four)
  (multiple : offset % 4 = 0) (addr : a.addr.toNat = 0xFFFFF000 + offset)
include reached size multiple addr

/-- The word at the access's offset decides (R30, R178). -/
theorem State.presentAccess_offset (kind : a.kind = .read ∨ a.kind = .write) :
    s.presentAccess p a = (s.unanswered p).accessSlot p a ∧ apertureOffset a.addr = offset := by
  have := a.addr.isLt
  refine ⟨State.presentAccess_slot reached ⟨kind, size, by omega, by omega⟩, ?_⟩
  unfold apertureOffset
  omega

theorem State.presentAccess_unmapped (kind : a.kind = .read ∨ a.kind = .write) (unmapped : slotWordAt offset = none) :
    s.presentAccess p a = { s with ports := vput s.ports p { s.port p with answer := some .error } } := by
  obtain ⟨present, at_offset⟩ := State.presentAccess_offset reached size multiple addr kind
  rw [present, State.accessSlot, at_offset, unmapped]
  exact s.unanswered_answer p .error

variable {w : SlotWord} (word : slotWordAt offset = some w)
include word

/-- A READ is answered with the word on the four lanes, and changes nothing else. -/
theorem State.presentAccess_read (kind : a.kind = .read) :
    s.presentAccess p a = { s with ports := vput s.ports p { s.port p with
      answer := some (.done (some (Vector.ofFn fun i => some ((s.readSlot p w).extractLsb' (8 * i.val) 8)))) } } := by
  obtain ⟨present, at_offset⟩ := State.presentAccess_offset reached size multiple addr (.inl kind)
  have unread : (s.unanswered p).readSlot p w = s.readSlot p w := by
    unfold State.readSlot State.readPlain
    rw [State.unanswered_port]
  have lanes : ∀ v : Word, lanesOfWord v 0 4 = Vector.ofFn fun i => some (v.extractLsb' (8 * i.val) 8) := fun v =>
    vector_ext_get fun i => by
      have : laneIn 0 4 i.val = true := by simp [laneIn]
      rw [lanesOfWord, ofFn_get, ofFn_get, if_pos this]
  rw [present, State.accessSlot, at_offset, word, ← lanes, ← unread, ← s.unanswered_answer p]
  simp only [kind]
  rfl

/-- A WRITE has the word's effect and is answered DONE. -/
theorem State.presentAccess_write (kind : a.kind = .write) :
    s.presentAccess p a = ((s.unanswered p).writeSlot p w a.data).answer p (.done none) := by
  obtain ⟨present, at_offset⟩ := State.presentAccess_offset reached size multiple addr (.inr kind)
  rw [present, State.accessSlot, at_offset, word]
  simp only [kind]
  rfl

end

theorem apertureWrite_addr (v : Word) {offset : Nat} (h : offset < 0x1000) :
    (apertureWrite offset v).addr.toNat = 0xFFFFF000 + offset :=
  (BitVec.toNat_ofNat _ _).trans (Nat.mod_eq_of_lt (by unfold Config.apertureBase; omega))

/-- An access that changes the slot and is answered DONE. -/
theorem State.unanswered_slot (s : State) (p : PortId) (f : Slot → Slot) :
    ((s.unanswered p).modifySlot p f).answer p (.done none) = { s with ports := vput s.ports p { s.port p with
      slot := f (s.port p).slot
      answer := some (.done none) } } := by
  rw [State.modifySlot_eq, State.answer_eq, State.modifyPort_modifyPort, State.unanswered_modifyPort]

/-- Settles O7: a WRITE by `State.presentAccess_write`, a READ by `State.presentAccess_read`, and nothing above 040h
(`slotWordAt_none`). -/
theorem slotWordsStoreAndReadBack : Obligations.SlotWordsStoreAndReadBack := by
  refine ⟨fun s p w v reached => ?_, ?_⟩
  · obtain ⟨low, multiple⟩ := plainWord_offset w
    have write := State.presentAccess_write reached (a := apertureWrite w.offset v) rfl multiple
      (apertureWrite_addr v (by omega)) (slotWordAt_plain w) rfl
    refine ⟨(s.port p).slot.writePlain w v, congrArg _ (write.trans (s.unanswered_slot p _)), ?_, ?_, ?_⟩
    · rintro rfl
      rfl
    · rintro k rfl
      rfl
    · intro notRequest notParam
      cases w with
      | request => exact absurd rfl notRequest
      | param k => exact absurd rfl (notParam k)
      | identity | status | result | resultWord => rfl
  · intro s p a reached size u answers reads
    have read : ∀ {offset : Nat} {v : Word} (w : SlotWord), offset % 4 = 0 → slotWordAt offset = some w →
        s.readSlot p w = v → reads offset v := fun w multiple word value kind addr =>
      value ▸ congrArg _ (State.presentAccess_read reached size multiple addr word kind)
    have plain : ∀ {v : Word} (w : PlainWord), s.readPlain p w = v → reads w.offset v := fun w value =>
      read (.plain w) (plainWord_offset w).2 (slotWordAt_plain w) value
    refine ⟨plain .request rfl, fun k => plain (.param k) rfl, plain .identity ?_, read .issue rfl rfl rfl,
      plain .status ?_, plain .result rfl, fun k => plain (.resultWord k) rfl, read .acknowledge rfl rfl rfl,
      fun kind multiple high => ?_⟩
    · show BitVec.ofNat 32 (p.val + bit (u.role == .supervisor) * 2 ^ 8) = _
      cases u.role <;> rfl
    · show u.slot.statusWord = _
      unfold Slot.statusWord
      cases u.slot.state <;> cases u.slot.overrun <;> rfl
    · obtain ⟨offset, addr⟩ := Nat.exists_eq_add_of_le (show 0xFFFFF000 ≤ a.addr.toNat by omega)
      exact congrArg _ (State.presentAccess_unmapped reached size (by omega) addr kind (slotWordAt_none (by omega)))

/-! ### Results (R180, R184) -/

/-- The fields of RESULT: the code, the generation-present bit, and the generation (R184). -/
def resultFields (code : ResultCode) (generation : Option Generation) : List BitField :=
  [⟨0, 8, code.number⟩, ⟨8, 1, bit generation.isSome⟩, ⟨9, 7, 0⟩, ⟨16, 16, (generation.getD 0).toNat⟩]

theorem resultCode_number_lt (code : ResultCode) : code.number < 256 := by cases code <;> decide

theorem resultWord_holds (code : ResultCode) (generation : Option Generation) :
    Holds (resultWord code generation) (resultFields code generation) := by
  have laid : LaidOut 0 32 (resultFields code generation) := by
    simp [LaidOut, resultFields, resultCode_number_lt, halfword_lt]
  cases generation <;> exact laid.holds (by simp [resultFields, total, Nat.add_assoc])

/-- Settles O9: the slot takes the result it awaits (`Slot.awaits_iff`), RESULT is read field by field
(`resultWord_holds`), and ACKNOWLEDGE is a WRITE that is answered DONE in every slot state. -/
theorem resultsAreTakenAndAcknowledged : Obligations.ResultsAreTakenAndAcknowledged := by
  refine ⟨fun s p n r => ⟨fun pending number => ?_, fun other => ?_⟩, ?_⟩
  · have holds := resultWord_holds r.code r.generation
    have awaits : (s.port p).slot.awaits n = true := ((s.port p).slot.awaits_iff n).2 ⟨pending, number⟩
    refine ⟨resultWord r.code r.generation, congrArg _ (if_pos awaits), ?_, holds.flag 1 rfl,
      holds.bits (v := 0) 2 rfl, holds.bits 3 rfl⟩
    rw [holds.field 0 rfl]
    cases r.code <;> rfl
  · have discards : ¬ (s.port p).slot.awaits n = true := fun h =>
      have ⟨pending, number⟩ := ((s.port p).slot.awaits_iff n).1 h
      other.elim (fun h => h pending) fun h => h number
    exact congrArg _ (if_neg discards)
  · intro s p reached leaves
    have write := State.presentAccess_write reached (a := apertureWrite acknowledgeOffset 0) rfl rfl
      (apertureWrite_addr 0 (by decide)) (w := .acknowledge) rfl rfl
    have event : exec (.acknowledge p) s = .next (leaves (s.port p).slot.acknowledged) :=
      congrArg _ (write.trans (s.unanswered_slot p Slot.acknowledged))
    refine ⟨fun complete => ?_, fun other => ?_⟩ <;> rw [event, Slot.acknowledged]
    · rw [if_pos (beq_iff_eq.2 complete)]
    · rw [if_neg (mt beq_iff_eq.1 other)]

end Sys2Proof.Machine
end

section
/-! ISSUE (R175, R179) and the REQUEST word (R183). -/

namespace Sys2Proof.Machine

/-! ### The REQUEST word (R183) -/

theorem kindOfCode_eq (n : Nat) : kindOfCode n = requestKinds[n]?.join := by
  by_cases h : n < 18
  · interval_cases n <;> rfl
  · obtain ⟨k, rfl⟩ := Nat.exists_eq_add_of_le' (not_lt.1 h)
    rfl

section
variable (c : Captured)

theorem Captured.kind_eq_some_iff (k : RequestKind) :
    c.kind = some k ↔ requestKinds[(c.request.extractLsb' 24 5).toNat]? = some (some k) := by
  rw [Captured.kind, field_eq_extract, kindOfCode_eq, Option.join_eq_some_iff]

theorem Captured.target_eq : c.target = (c.request.extractLsb' 16 7).toNat := field_eq_extract _ _ _

theorem Captured.any_eq : c.any = c.request.getLsbD 23 := by
  rw [Captured.any, field_eq_extract, toNat_extract_one]
  cases c.request.getLsbD 23 <;> rfl

theorem Captured.expected_eq : c.expected = c.request.extractLsb' 0 16 := by
  rw [Captured.expected, field_eq_extract, BitVec.ofNat_toNat, BitVec.setWidth_eq]

/-- A port request for a target that is not a port (R179). -/
def Captured.OutsidePorts (k : RequestKind) : Prop :=
  k ∈ [.portOnline, .portOffline, .fence, .unfence, .clearFault, .queryPort] ∧ 6 ≤ c.target

theorem Captured.slotRefusal_none (h : c.kind = none) : c.slotRefusal = some .invalid := by
  rw [Captured.slotRefusal, h]

theorem Captured.slotRefusal_some {k : RequestKind} (h : c.kind = some k) :
    c.slotRefusal = if k.destination == .port && 6 ≤ c.target then some .noSuch else none := by
  rw [Captured.slotRefusal, h]

variable {c}

theorem Captured.OutsidePorts.iff {k : RequestKind} :
    (k.destination == .port && decide (6 ≤ c.target)) = true ↔ c.OutsidePorts k := by
  rw [Captured.OutsidePorts, Bool.and_eq_true, decide_eq_true_iff]
  cases k <;> simp [RequestKind.destination]

end

/-! ### A WRITE to ISSUE -/

/-- A result changes the slot alone, as `Slot.given` says. -/
theorem State.postResult_eq_modifySlot (s : State) (p : PortId) (n : RequestNumber) (r : Result) :
    s.postResult p n r = s.modifySlot p fun sl => sl.given n r := by
  unfold State.postResult
  by_cases h : (s.port p).slot.awaits n = true
  · have given : (s.port p).slot.given n r = (s.port p).slot.complete r := if_pos (((s.port p).slot.awaits_iff n).1 h)
    rw [if_pos h]
    simp only [State.modifySlot_eq, State.modifyPort_eq, given]
  · have given : (s.port p).slot.given n r = (s.port p).slot := if_neg (mt ((s.port p).slot.awaits_iff n).2 h)
    rw [if_neg h]
    simp only [State.modifySlot_eq, State.modifyPort_eq, given]
    exact congrArg (fun ports => { s with ports := ports }) (vput_self s.ports p).symm

section
variable {s : State} {p : PortId}

theorem State.issue_overrun (h : (s.port p).slot.state ≠ .idle) :
    s.issue p = s.modifySlot p fun sl => { sl with overrun := true } :=
  if_neg (mt beq_iff_eq.1 h)

variable (idle : (s.port p).slot.state = .idle)
include idle

/-- In IDLE the slot's examination decides. -/
theorem State.issue_idle :
    s.issue p = (s.port p).slot.capturedRequest.slotRefusal.elim
      ((s.modifySlot p Slot.capturing).sendRequest p (s.port p).slot.capturedRequest) fun code =>
        (s.modifySlot p Slot.capturing).postResult p ((s.port p).slot.number + 1) (plainResult code none) := by
  rw [State.issue]
  simp only [idle]
  cases (s.port p).slot.capturedRequest.slotRefusal <;> rfl

/-- A request that the slot itself refuses completes at once. -/
theorem State.issue_refused {code : ResultCode}
    (refusal : (s.port p).slot.capturedRequest.slotRefusal = some code) :
    s.issue p = s.modifySlot p fun sl => sl.capturing.given ((s.port p).slot.number + 1) (plainResult code none) := by
  rw [State.issue_idle idle, refusal]
  show (s.modifySlot p Slot.capturing).postResult p _ _ = _
  rw [State.postResult_eq_modifySlot]
  simp only [State.modifySlot_eq, State.modifyPort_modifyPort]

variable (passes : (s.port p).slot.capturedRequest.slotRefusal = none)
include passes

theorem State.issue_held (stale : (s.port p).staleRequest = true) :
    s.issue p = s.modifySlot p fun sl => { sl.capturing with held := some (s.port p).slot.capturedRequest } := by
  rw [State.issue_idle idle, passes]
  show (s.modifySlot p Slot.capturing).sendRequest p _ = _
  have stale : ((s.modifySlot p Slot.capturing).port p).staleRequest = true := by simpa using stale
  rw [State.sendRequest, if_pos stale]
  simp only [State.modifySlot_eq, State.modifyPort_modifyPort]

theorem State.issue_sent (clear : (s.port p).staleRequest = false) :
    s.issue p = (s.modifySlot p Slot.capturing).setRequest p (some (s.port p).slot.capturedRequest) := by
  rw [State.issue_idle idle, passes]
  show (s.modifySlot p Slot.capturing).sendRequest p _ = _
  have clear : ¬ ((s.modifySlot p Slot.capturing).port p).staleRequest = true := by simpa using clear
  rw [State.sendRequest, if_neg clear]

end

/-- Settles O8: the REQUEST word's fields, and what a WRITE to ISSUE comes to in each case (`State.issue_overrun`,
`State.issue_refused`, `State.issue_held`, `State.issue_sent`). -/
theorem issueCapturesTheRequest : Obligations.IssueCapturesTheRequest := by
  intro s p a reached kind size addr u captured taken leaves outsidePorts
  have event : exec (.accessArrival p a) s = .next (((s.unanswered p).issue p).answer p (.done none)) :=
    congrArg _ (State.presentAccess_write reached size (offset := 0x020) rfl addr (w := .issue) rfl kind)
  have slot : ((s.unanswered p).port p).slot = u.slot := by rw [State.unanswered_port]
  have flag : ((s.unanswered p).port p).staleRequest = u.staleRequest := by rw [State.unanswered_port]
  have request : ((s.unanswered p).port p).slot.capturedRequest = captured := congrArg Slot.capturedRequest slot
  rw [event]
  refine ⟨⟨captured.expected_eq, captured.target_eq, captured.any_eq, captured.kind_eq_some_iff⟩, fun busy => ?_,
    fun idle => ?_⟩
  · rw [State.issue_overrun (slot ▸ busy), State.unanswered_slot]
  have idle : ((s.unanswered p).port p).slot.state = .idle := slot ▸ idle
  have refused : ∀ code, captured.slotRefusal = some code →
      Host.Outcome.next (((s.unanswered p).issue p).answer p (.done none)) =
        (.next (leaves (taken.given captured.number (plainResult code none))) : Host.Outcome State Fault Refusal) :=
    fun code refusal => by
      rw [State.issue_refused idle (request ▸ refusal), State.unanswered_slot, slot]
      rfl
  refine ⟨fun none => refused _ (captured.slotRefusal_none none), fun k known => ⟨fun outside => ?_,
    fun inside stale => ?_, fun inside clear => ?_⟩⟩
  · exact refused _ ((captured.slotRefusal_some known).trans (if_pos (Captured.OutsidePorts.iff.2 outside)))
  all_goals
    have passes : captured.slotRefusal = none :=
      (captured.slotRefusal_some known).trans (if_neg (mt Captured.OutsidePorts.iff.1 inside))
  · rw [State.issue_held idle (request ▸ passes) (flag ▸ stale), State.unanswered_slot, request]
    rfl
  · rw [State.issue_sent idle (request ▸ passes) (flag ▸ clear), request]
    exact congrArg (fun t : State => Host.Outcome.next (t.setRequest p (some captured)))
      (s.unanswered_slot p Slot.capturing)

end Sys2Proof.Machine
end

section
/-! The queue of waiting commands through what the port units, the arbiter and the engine do: no operation of the part
touches it. -/

namespace Sys2Proof.Machine

section
variable (s : State) (p : PortId)

/-- Operations applied one after another leave the queue when each of them does. -/
theorem State.foldl_pending {α : Type} (f : State → α → State) (h : ∀ (t : State) x, (f t x).pending = t.pending)
    (l : List α) : (l.foldl f s).pending = s.pending := by
  induction l generalizing s with
  | nil => rfl
  | cons x l ih => exact (ih (f s x)).trans (h s x)

/-! ### Arrivals (2.2 to 2.5, 10.1) -/

@[simp] theorem State.sendRequest_pending (c : Captured) : (s.sendRequest p c).pending = s.pending := by
  unfold State.sendRequest
  split <;> simp

@[simp] theorem State.issue_pending : (s.issue p).pending = s.pending := by
  unfold State.issue
  dsimp only
  split
  · split <;> simp
  · simp

@[simp] theorem State.writeSlot_pending (w : SlotWord) (v : Word) : (s.writeSlot p w v).pending = s.pending := by
  cases w <;> simp [State.writeSlot]

@[simp] theorem State.accessSlot_pending (a : Access) : (s.accessSlot p a).pending = s.pending := by
  unfold State.accessSlot
  split
  · simp
  · split <;> simp

@[simp] theorem State.hitEntry_pending (a : Access) (i : Fin 4) (c : Copy) :
    (s.hitEntry p a i c).pending = s.pending := by
  unfold State.hitEntry
  dsimp only
  split <;> simp

@[simp] theorem State.lookUp_pending (a : Access) : (s.lookUp p a).pending = s.pending := by
  unfold State.lookUp
  split <;> simp

@[simp] theorem State.checkArrival_pending (a : Access) : (s.checkArrival p a).pending = s.pending := by
  unfold State.checkArrival
  split_ifs <;> simp

@[simp] theorem State.arrive_pending (a : Access) : (s.arrive p a).pending = s.pending := by
  unfold State.arrive
  split
  · simp
  · split
    · simp
    · split <;> simp
    · split <;> simp
    · simp

@[simp] theorem State.presentAccess_pending (a : Access) : (s.presentAccess p a).pending = s.pending := by
  unfold State.presentAccess
  split <;> simp

/-! ### What the ports take from the table (R38 to R43) -/

@[simp] theorem State.takeAdmitted_pending (c : Copy) : (s.takeAdmitted p c).pending = s.pending := by
  unfold State.takeAdmitted
  split
  · simp
  · split <;> simp

@[simp] theorem State.takeDenied_pending (c : Copy) (k : FaultKind) : (s.takeDenied p c k).pending = s.pending := by
  unfold State.takeDenied
  split
  · simp
  · split <;> simp

@[simp] theorem State.takeNoWindow_pending : (s.takeNoWindow p).pending = s.pending := by
  unfold State.takeNoWindow
  split
  · simp
  · split <;> simp

@[simp] theorem State.takePark_pending (w : WindowId) : (s.takePark p w).pending = s.pending := by
  unfold State.takePark
  split
  · simp
  · split <;> simp

@[simp] theorem State.takeRelease_pending (w : WindowId) : (s.takeRelease p w).pending = s.pending := by
  unfold State.takeRelease
  split
  · split <;> simp
  · rfl

@[simp] theorem State.takeRetire_pending (w : WindowId) : (s.takeRetire p w).pending = s.pending := by
  unfold State.takeRetire
  split
  · split <;> simp
  · rfl

/-! ### The ending of a part (R105 to R111) -/

@[simp] theorem State.partCompleted_pending (r : BusAccess) : (s.partCompleted r).pending = s.pending := by
  unfold State.partCompleted
  split <;> simp

@[simp] theorem State.retryPart_pending (r : BusAccess) : (s.retryPart r).pending = s.pending := by
  unfold State.retryPart
  dsimp only
  split <;> simp [State.releaseForRetry]

/-! ### Resets (9.4, 9.5) -/

@[simp] theorem State.abandonOnBus_pending : (s.abandonOnBus p).pending = s.pending := by
  unfold State.abandonOnBus
  split
  · rfl
  · split
    · split <;> simp
    · rfl

@[simp] theorem State.abandonCurrent_pending : (s.abandonCurrent p).pending = s.pending := by
  unfold State.abandonCurrent
  dsimp only
  split <;> simp

@[simp] theorem State.resetPort_pending : (s.resetPort p).pending = s.pending := by
  simp [State.resetPort]

@[simp] theorem State.takeHeldReset_pending : (s.takeHeldReset p).pending = s.pending := by
  unfold State.takeHeldReset
  split <;> simp

end

end Sys2Proof.Machine
end

section
/-! The queue of waiting commands through what the window table controller does, and through the requests that it, the
port units and the configuration unit take. -/

namespace Sys2Proof.Machine

section
variable (s : State) (p : PortId) (w : WindowId)

/-! ### Counts, sets and pending operations (R10 to R16) -/

@[simp] theorem State.evaluate_pending : (s.evaluate w).pending = s.pending := by
  cases h : (s.record w).body with
  | none => rw [s.evaluate_free w h]
  | some b =>
    obtain ⟨-, -, -, -, -, -, pending⟩ := s.evaluate_spec w b h
    exact pending

@[simp] theorem State.modifyCount_pending (e : Epoch) (f : Nat → Nat) :
    (s.modifyCount w e f).pending = s.pending := by
  simp [State.modifyCount]

@[simp] theorem State.takeWalk_pending (h : AccessHead) : (s.takeWalk p h).pending = s.pending := by
  unfold State.takeWalk
  dsimp only
  split <;> simp

@[simp] theorem State.offerAdded_pending : (s.offerAdded p).pending = s.pending := by
  unfold State.offerAdded
  split <;> simp

@[simp] theorem State.subtract_pending (e : Epoch) : (s.subtract w e).pending = s.pending := by
  simp [State.subtract]

@[simp] theorem State.acknowledge_pending (g : Generation) : (s.acknowledge p w g).pending = s.pending := by
  unfold State.acknowledge
  split
  · rfl
  · split <;> simp

@[simp] theorem State.leaveSet_pending : (s.leaveSet p w).pending = s.pending := by
  unfold State.leaveSet
  split
  · rfl
  · split <;> simp

@[simp] theorem State.setView_pending (offline : Bool) : (s.setView p offline).pending = s.pending := rfl

/-! ### The examination of a window request (3.1) -/

/-- The table's taking of a request leaves the queue when what follows it does. -/
theorem State.onTableRequest_pending (kind : RequestKind) {act : PortId → Captured → State → State}
    (h : ∀ q c (t : State), (act q c t).pending = t.pending) : (s.onTableRequest kind act).pending = s.pending := by
  unfold State.onTableRequest
  split
  · rfl
  · split <;> simp [h]

@[simp] theorem State.refuse_pending (c : Captured) (code : ResultCode) (g : Option Generation) :
    (s.refuse p c code g).pending = s.pending := by
  simp [State.refuse]

theorem State.examineRequest_pending (kind : RequestKind) (c : Captured) {act : WindowId → State → State}
    (h : ∀ v (t : State), (act v t).pending = t.pending) : (s.examineRequest kind p c act).pending = s.pending := by
  unfold State.examineRequest
  dsimp only
  split_ifs
  · simp
  · simp
  · split <;> simp [h]
  · simp

/-- A window request that the table takes and examines leaves the queue when its acceptance does. -/
theorem State.windowRequest_pending (kind : RequestKind) {act : PortId → Captured → WindowId → State → State}
    (h : ∀ q c v (t : State), (act q c v t).pending = t.pending) :
    (s.onTableRequest kind fun q c t => t.examineRequest kind q c (act q c)).pending = s.pending :=
  s.onTableRequest_pending kind fun q c t => t.examineRequest_pending q kind c (h q c)

/-! ### The parts of an accepted window request (R52, R53, R143) -/

@[simp] theorem State.changeWindow_pending (b : Option WindowBody) : (s.changeWindow w b).pending = s.pending := rfl

@[simp] theorem State.postDone_pending (c : Captured) : (s.postDone w p c).pending = s.pending := by
  simp [State.postDone]

@[simp] theorem State.postCancelled_pending (op : Option PendingOp) : (s.postCancelled w op).pending = s.pending := by
  unfold State.postCancelled
  split <;> simp

@[simp] theorem State.breakAndLink_pending (e : Option Epoch) : (s.breakAndLink w e).pending = s.pending := rfl

@[simp] theorem State.startOperation_pending (b : WindowBody) : (s.startOperation w b).pending = s.pending := by
  simp [State.startOperation]

/-! ### The window requests (3.2 to 3.9, R187) -/

variable (c : Captured)

theorem State.takeDefine_pending : (s.takeDefine p c w).pending = s.pending := by
  unfold State.takeDefine
  split <;> simp

theorem State.takeAmend_pending : (s.takeAmend p c w).pending = s.pending := by
  unfold State.takeAmend
  dsimp only
  split
  · split <;> simp
  · simp

theorem State.takeEnable_pending : (s.takeEnable p c w).pending = s.pending := by
  unfold State.takeEnable
  split
  · rfl
  · split <;> simp

theorem State.takeHold_pending : (s.takeHold p c w).pending = s.pending := by
  unfold State.takeHold
  split <;> simp

theorem State.takeReleaseRequest_pending : (s.takeReleaseRequest p c w).pending = s.pending := by
  unfold State.takeReleaseRequest
  split
  · rfl
  · split <;> simp

theorem State.takeRetireRequest_pending : (s.takeRetireRequest p c w).pending = s.pending := by
  unfold State.takeRetireRequest
  split
  · rfl
  · split <;> simp

theorem State.takeSetRights_pending : (s.takeSetRights p c w).pending = s.pending := by
  unfold State.takeSetRights
  dsimp only
  split
  · split
    · simp
    · split <;> simp
  · simp

theorem State.takeQueryWindow_pending : (s.takeQueryWindow p c).pending = s.pending := by
  unfold State.takeQueryWindow
  dsimp only
  split_ifs <;> simp

/-! ### Requests to ports and to the configuration unit (8.4, 9.2, 9.3, 10.4) -/

theorem State.onRequest_pending (kind : RequestKind) {act : Captured → State → State}
    (h : ∀ d (t : State), (act d t).pending = t.pending) : (s.onRequest kind p act).pending = s.pending := by
  unfold State.onRequest
  split
  · rfl
  · split <;> simp [h]

theorem State.onPortRequest_pending (kind : RequestKind) {act : PortId → Captured → State → State}
    (h : ∀ q d (t : State), (act q d t).pending = t.pending) : (s.onPortRequest kind p act).pending = s.pending := by
  refine s.onRequest_pending p kind fun d t => ?_
  split <;> simp [h]

@[simp] theorem State.reply_pending (code : ResultCode) : (s.reply p c code).pending = s.pending := by
  simp [State.reply]

variable (q : PortId)

theorem State.takeOnline_pending : (s.takeOnline p q c).pending = s.pending := by
  unfold State.takeOnline
  split_ifs <;> simp

theorem State.takeOffline_pending : (s.takeOffline p q c).pending = s.pending := by
  unfold State.takeOffline
  split_ifs <;> simp

theorem State.takeFence_pending : (s.takeFence p q c).pending = s.pending := by
  unfold State.takeFence
  split_ifs <;> simp

theorem State.takeUnfence_pending : (s.takeUnfence p q c).pending = s.pending := by
  unfold State.takeUnfence
  split_ifs <;> simp

theorem State.takeClearFault_pending : (s.takeClearFault p q c).pending = s.pending := by
  unfold State.takeClearFault
  split <;> simp

theorem State.takeQueryPort_pending : (s.takeQueryPort p q c).pending = s.pending := by
  unfold State.takeQueryPort
  split
  · split <;> simp
  · simp

theorem State.takeSetParam_pending : (s.takeSetParam p c).pending = s.pending := by
  unfold State.takeSetParam
  split_ifs
  · simp
  · simp
  · split <;> simp

theorem State.takeClearDeviceFault_pending : (s.takeClearDeviceFault p c).pending = s.pending := by
  unfold State.takeClearDeviceFault
  split <;> simp

theorem State.takeQueryDevice_pending : (s.takeQueryDevice p c).pending = s.pending := by
  unfold State.takeQueryDevice
  split
  · split <;> simp
  · simp

end

end Sys2Proof.Machine
end

section
/-! A step takes the front command of the queue, and every command goes on and leaves the queue as it was. -/

namespace Sys2Proof.Machine

/-- The part goes on from `s`, with the commands that wait as they were. -/
def State.GoesOn (s : State) (o : Host.Outcome State Fault Refusal) : Prop :=
  ∃ t, o = .next t ∧ t.pending = s.pending

theorem State.GoesOn.of_pending {s t : State} (h : t.pending = s.pending) : s.GoesOn (.next t) := ⟨t, rfl, h⟩

section
variable (s : State) (p : PortId)

/-! ### The messages between the ports and the table -/

theorem execWalk_goesOn : s.GoesOn (execWalk s) := by
  refine .of_pending ?_
  split
  · rfl
  · split <;> simp

theorem execAdmitAnswer_goesOn : s.GoesOn (execAdmitAnswer p s) := by
  refine .of_pending ?_
  split <;> simp

theorem execDenyAnswer_goesOn : s.GoesOn (execDenyAnswer p s) := by
  refine .of_pending ?_
  split <;> simp

theorem execNoneAnswer_goesOn : s.GoesOn (execNoneAnswer p s) := by
  refine .of_pending ?_
  split <;> simp

theorem execParkAnswer_goesOn : s.GoesOn (execParkAnswer p s) := by
  refine .of_pending ?_
  split <;> simp

theorem execAddition_goesOn : s.GoesOn (execAddition p s) := by
  refine .of_pending ?_
  split
  · split <;> simp
  · rfl

theorem execSubtraction_goesOn (sender : SubtractionSender) : s.GoesOn (execSubtraction sender s) := by
  refine .of_pending ?_
  cases sender with
  | port p => dsimp only; split <;> simp
  | engine => dsimp only; split <;> simp

theorem execAcknowledgement_goesOn : s.GoesOn (execAcknowledgement p s) := by
  refine .of_pending ?_
  split <;> simp

theorem execOfflineNotice_goesOn : s.GoesOn (execOfflineNotice p s) := by
  refine .of_pending ?_
  split
  · exact (State.foldl_pending _ _ (fun t w => t.leaveSet_pending p w) _).trans (by simp)
  · rfl

theorem execOnlineNotice_goesOn : s.GoesOn (execOnlineNotice p s) := by
  refine .of_pending ?_
  split <;> simp

theorem execShootDown_goesOn : s.GoesOn (execShootDown p s) := by
  refine .of_pending ?_
  split <;> simp

theorem execReleaseNotice_goesOn : s.GoesOn (execReleaseNotice p s) := by
  refine .of_pending ?_
  split <;> simp

theorem execRetireNotice_goesOn : s.GoesOn (execRetireNotice p s) := by
  refine .of_pending ?_
  split <;> simp

theorem execParkTimerExpiry_goesOn : s.GoesOn (execParkTimerExpiry p s) := by
  refine .of_pending ?_
  split <;> simp

/-! ### The events of the bus -/

theorem execPartAck_goesOn (lanes : Word) (n : Nat) : s.GoesOn (execPartAck lanes s n) := by
  refine .of_pending ?_
  split
  · rfl
  · dsimp only
    split <;> simp

theorem execPartErr_goesOn (n : Nat) : s.GoesOn (execPartErr s n) := by
  refine .of_pending ?_
  split
  · rfl
  · dsimp only
    split <;> simp

theorem execPartRty_goesOn (n : Nat) : s.GoesOn (execPartRty s n) := by
  refine .of_pending ?_
  split
  · rfl
  · dsimp only
    split <;> simp

theorem execResponseTimerExpiry_goesOn : s.GoesOn (execResponseTimerExpiry s) := by
  refine .of_pending ?_
  split
  · rfl
  · dsimp only
    split <;> simp

theorem execRetryWaitExpiry_goesOn : s.GoesOn (execRetryWaitExpiry s) := by
  refine .of_pending ?_
  split <;> simp

theorem execExternalRequest_goesOn : s.GoesOn (execExternalRequest s) := by
  refine .of_pending ?_
  split <;> simp

theorem execExternalWithdraw_goesOn : s.GoesOn (execExternalWithdraw s) := by
  refine .of_pending ?_
  split <;> simp

theorem execExternalWriteAck_goesOn (addr : SysAddr) (size : AccessSize) :
    s.GoesOn (execExternalWriteAck addr size s) := by
  refine .of_pending ?_
  split <;> simp

theorem execEntryFinishedReport_goesOn : s.GoesOn (execEntryFinishedReport p s) := by
  refine .of_pending ?_
  split <;> simp

/-! ### Resets -/

theorem execPortReset_goesOn : s.GoesOn (execPortReset p s) := by
  refine .of_pending ?_
  split <;> simp [State.setResetInput]

theorem execDeviceReset_goesOn (straps : Straps) : s.GoesOn (execDeviceReset straps s) := by
  have held := State.foldl_pending (s.deviceReset straps) State.takeHeldReset State.takeHeldReset_pending allPorts
  exact .of_pending ((State.choose_off_bus _).pending.trans held)

end

/-! ### Every command -/

theorem exec_goesOn (c : Instr) (s : State) : s.GoesOn (exec c s) := by
  cases c with
  | accessArrival p a => exact .of_pending (s.presentAccess_pending p _)
  | registerWrite p word value => exact .of_pending (s.presentAccess_pending p _)
  | acknowledge p => exact .of_pending (s.presentAccess_pending p _)
  | walk => exact execWalk_goesOn s
  | admitAnswer p => exact execAdmitAnswer_goesOn s p
  | denyAnswer p => exact execDenyAnswer_goesOn s p
  | noneAnswer p => exact execNoneAnswer_goesOn s p
  | parkAnswer p => exact execParkAnswer_goesOn s p
  | addition p => exact execAddition_goesOn s p
  | subtraction sender => exact execSubtraction_goesOn s sender
  | acknowledgement p => exact execAcknowledgement_goesOn s p
  | offlineNotice p => exact execOfflineNotice_goesOn s p
  | onlineNotice p => exact execOnlineNotice_goesOn s p
  | shootDown p => exact execShootDown_goesOn s p
  | releaseNotice p => exact execReleaseNotice_goesOn s p
  | retireNotice p => exact execRetireNotice_goesOn s p
  | parkTimerExpiry p => exact execParkTimerExpiry_goesOn s p
  | define => exact .of_pending (s.windowRequest_pending .define fun p c w t => t.takeDefine_pending p w c)
  | amend => exact .of_pending (s.windowRequest_pending .amend fun p c w t => t.takeAmend_pending p w c)
  | enable => exact .of_pending (s.windowRequest_pending .enable fun p c w t => t.takeEnable_pending p w c)
  | hold => exact .of_pending (s.windowRequest_pending .hold fun p c w t => t.takeHold_pending p w c)
  | release => exact .of_pending (s.windowRequest_pending .release fun p c w t => t.takeReleaseRequest_pending p w c)
  | retire => exact .of_pending (s.windowRequest_pending .retire fun p c w t => t.takeRetireRequest_pending p w c)
  | setRights => exact .of_pending (s.windowRequest_pending .setRights fun p c w t => t.takeSetRights_pending p w c)
  | queryWindow => exact .of_pending (s.onTableRequest_pending .queryWindow fun p c t => t.takeQueryWindow_pending p c)
  | portOnline issuer =>
    exact .of_pending (s.onPortRequest_pending issuer .portOnline fun q c t => t.takeOnline_pending issuer c q)
  | portOffline issuer =>
    exact .of_pending (s.onPortRequest_pending issuer .portOffline fun q c t => t.takeOffline_pending issuer c q)
  | fence issuer =>
    exact .of_pending (s.onPortRequest_pending issuer .fence fun q c t => t.takeFence_pending issuer c q)
  | unfence issuer =>
    exact .of_pending (s.onPortRequest_pending issuer .unfence fun q c t => t.takeUnfence_pending issuer c q)
  | clearFault issuer =>
    exact .of_pending (s.onPortRequest_pending issuer .clearFault fun q c t => t.takeClearFault_pending issuer c q)
  | queryPort issuer =>
    exact .of_pending (s.onPortRequest_pending issuer .queryPort fun q c t => t.takeQueryPort_pending issuer c q)
  | setParam issuer =>
    exact .of_pending (s.onRequest_pending issuer .setParam fun c t => t.takeSetParam_pending issuer c)
  | clearDeviceFault issuer =>
    exact .of_pending (s.onRequest_pending issuer .clearDeviceFault fun c t => t.takeClearDeviceFault_pending issuer c)
  | queryDevice issuer =>
    exact .of_pending (s.onRequest_pending issuer .queryDevice fun c t => t.takeQueryDevice_pending issuer c)
  | resultTaken p number result => exact .of_pending (by simp)
  | partAck lanes number => exact execPartAck_goesOn s lanes number
  | partErr number => exact execPartErr_goesOn s number
  | partRty number => exact execPartRty_goesOn s number
  | responseTimerExpiry => exact execResponseTimerExpiry_goesOn s
  | retryWaitExpiry => exact execRetryWaitExpiry_goesOn s
  | externalRequest => exact execExternalRequest_goesOn s
  | externalWithdraw => exact execExternalWithdraw_goesOn s
  | externalWriteAck addr size => exact execExternalWriteAck_goesOn s addr size
  | entryFinishedReport p => exact execEntryFinishedReport_goesOn s p
  | portReset p => exact execPortReset_goesOn s p
  | deviceReset straps => exact execDeviceReset_goesOn s straps
  | portResetRelease p => exact .of_pending rfl

/-- Settles O1: `step` splits on the queue, and the front command's branch is `exec` of it. -/
theorem stepRunsTheFrontCommand : Obligations.StepRunsTheFrontCommand := by
  intro c rest s front
  rw [step, front]

/-- Settles O2: each command's meaning is a next state, made by operations that leave the queue (`exec_goesOn`). -/
theorem everyCommandGoesOn : Obligations.EveryCommandGoesOn := exec_goesOn

end Sys2Proof.Machine
end
